-- ==== Sys2Proof/Word.lean ====
section
/-! DEFINITION. The words of GOLFB: bytes, command words, coordinates and seeds (rules R9, R12). -/

namespace Sys2Proof

/-- A byte: 8 bits, bit `i` of weight `2^i` (R12). -/
abbrev Byte := BitVec 8

/-- A command word `CMD`, `CMD_BITS = 32` (R9, R66). -/
abbrev Word := BitVec 32

/-- A coordinate operand, unsigned, `CW = 8` bits (R9, R67). -/
abbrev Coord := BitVec 8

/-- A seed on the `SEED_IN` port, `SEED_BITS = 32` (R8, R29). -/
abbrev Seed := BitVec 32

end Sys2Proof
end

