-- ==== Sys2Proof/Machine/Registers.lean ====
section
/-! DEFINITION. The shapes of the block's registers and grids: the working registers (R22), the sequencer position
(R24) and the bit matrices of the automaton (R20, R21, R42). -/

namespace Sys2Proof.Machine

/-- `SEQ.op` (R24): `IDLE`, or the operation in progress. -/
inductive SeqOp where
  | idle | clear | setpix | refresh | init | caload | caseed | advance | rdcell
deriving DecidableEq, Repr, Inhabited

/-- `SEQ.PH` (R24, R25): the positions of REFRESH and INIT at which a frame is sent. R24 gives it `CMD` and `DATA` only, and
R25's position INITFRAME has no field of `SEQ` to hold it; the third value `initFrame` is the model's choice (DESIGN CHOICE,
unsafe; log 30). INIT's CLEAR position (R25) sends nothing, so the block never stands there between two steps (log 25). -/
inductive Phase where
  | initFrame | cmd | data
deriving DecidableEq, Repr, Inhabited

/-- The sequencer position `SEQ` (R24). -/
structure Seq where
  /-- `SEQ.op`. -/
  op : SeqOp
  /-- `SEQ.P`, the page index. -/
  p : Nat
  /-- `SEQ.PH`, the phase within a page, or INITFRAME (log 30). -/
  ph : Phase
  /-- `SEQ.CX`, the column of the cell scan. -/
  cx : Nat
  /-- `SEQ.CY`, the row of the cell scan. -/
  cy : Nat
deriving DecidableEq, Repr, Inhabited

/-- The working registers of the datapath (R22). `idx` has whatever width holds `N-1`, so it is a number. -/
structure WorkRegs where
  /-- `X`, operand `x`. -/
  x : Coord
  /-- `Y`, operand `y`. -/
  y : Coord
  /-- `V`, operand `v`. -/
  v : Bool
  /-- `IDX`, the byte index ADEC gives. -/
  idx : Nat
  /-- `BIT`, the bit index ADEC gives. -/
  bit : BitVec 3
  /-- `INR`, 1 when the pixel is in range. -/
  inr : Bool
  /-- `SAVED`, the byte that stood in the tag slot. -/
  saved : Byte
  /-- `NCNT`, the saturated neighbour count. -/
  ncnt : BitVec 3
deriving DecidableEq, Repr, Inhabited

/-- A bit matrix as the list of its rows, row `y = 0` first and `x = 0` first within a row (R13, R42). -/
abbrev Grid := List (List Bool)

/-- Cell `(x, y)` of a grid, `G[y][x]` (R42); a position the matrix does not hold reads dead (R113). -/
def cell (g : Grid) (x y : Nat) : Bool :=
  ((g[y]?.getD [])[x]?).getD false

/-- The `gh x gw` matrix whose cell `(x, y)` is `f x y` (R20, R42). -/
def gridOf (gw gh : Nat) (f : Nat → Nat → Bool) : Grid :=
  (List.range gh).map fun y => (List.range gw).map fun x => f x y

/-- The matrix has `gh` rows of `gw` cells (R20, R21). -/
def gridShape (gw gh : Nat) (g : Grid) : Bool :=
  g.length == gh && g.all fun row => row.length == gw

end Sys2Proof.Machine
end

