-- ==== Sys2Proof/Config.lean ====
section
/-! DEFINITION. What is fixed when the block is built (R7, R8, R9, R31), and the free values: what the spec leaves
without a value is an opaque constant here, about which nothing can be proved. -/

namespace Sys2Proof

/-- The parameters of one build of the block (R7, R31). They are constants: no operation changes them (R127). -/
structure Config where
  /-- `W`, surface width in pixels. -/
  w : Nat
  /-- `H`, surface height in pixels. -/
  h : Nat
  /-- `GW`, grid width in cells. -/
  gw : Nat
  /-- `GH`, grid height in cells. -/
  gh : Nat
  /-- `DEV_ADDR`, the device address (R31, D11). -/
  devAddr : Byte
  /-- `INIT_FRAME`, the whole initialization frame, tag included (R63, D10). -/
  initFrame : List Byte
deriving DecidableEq, Repr, Inhabited

/-- `NP = H / B`, the number of pages, with `B = 8` (R7). -/
def Config.np (c : Config) : Nat := c.h / 8

/-- `N = 1 + W * NP`, the framebuffer size in bytes (R7, R19). -/
def Config.n (c : Config) : Nat := 1 + c.w * c.np

/-- `COMMAND_TAG` (R8). -/
def Config.commandTag : Byte := 0x00#8

/-- `DATA_TAG` (R8). -/
def Config.dataTag : Byte := 0x40#8

/-- `PAGE_BASE` (R8). -/
def Config.pageBase : Byte := 0xB0#8

/-- `COLUMN_LOW` (R8; the literal wins, C2). -/
def Config.columnLow : Byte := 0x02#8

/-- `COLUMN_HIGH` (R8; the literal wins, C2). -/
def Config.columnHigh : Byte := 0x10#8

/-- OPEN: the bytes of `INIT_FRAME` between its tag and the contrast value (R63, U6). -/
opaque Config.initFrameBefore : List Byte

/-- OPEN: the bytes of `INIT_FRAME` after the contrast value (R63, U6). -/
opaque Config.initFrameAfter : List Byte

/-- `INIT_FRAME` of the default build: any frame of which the two facts of R63 hold (first byte `0x00`, `0x7F` occurs in
it), and of which nothing else is known. -/
def Config.initFrameOpen : List Byte :=
  Config.commandTag :: (Config.initFrameBefore ++ 0x7F#8 :: Config.initFrameAfter)

/-- OPEN: `PRNG_FILL(seed, GW, GH)`, cell `(x, y)` (R9, R123, U7); a function, and nothing else is known of it. -/
opaque Config.prngFill : Seed → Nat → Nat → Nat → Nat → Bool

/-- Free: the byte at an index of `FB` after the reset of the given draw, until something writes it (R36, U2). -/
opaque Config.fbPowerUp : Nat → Nat → Byte

/-- Free: cell `(x, y)` of `CUR` after the reset of the given draw (R36, U2). -/
opaque Config.curPowerUp : Nat → Nat → Nat → Bool

/-- Free: cell `(x, y)` of `NXT` where it is unspecified (R21, R120, R122, R125, U3). -/
opaque Config.freeCell : Nat → Nat → Nat → Bool

/-- Free: the working registers where they are unspecified (R36, R84). -/
opaque Config.freeRegs : Nat → Machine.WorkRegs

/-- Free: the fields of `SEQ` where they are unspecified (R24, R36). -/
opaque Config.freeSeq : Nat → Machine.Seq

/-- Free: `RD_DATA` at reset (R33, R36, U9). -/
opaque Config.freeRdData : Nat → Bool

/-- Free: what stands on `SEED_IN` before a command is accepted (R29). -/
opaque Config.freeSeedIn : Nat → Seed

/-- Free: what stands on `GRID_IN` before a command is accepted (R29). -/
opaque Config.freeGridIn : Nat → Nat

/-- The default build (R7, R8): 128 x 64 pixels and cells, device address `0x3C`. -/
def Config.default : Config where
  w := 128
  h := 64
  gw := 128
  gh := 64
  devAddr := 0x3C#8
  initFrame := Config.initFrameOpen

end Sys2Proof
end

