-- ==== Sys2Proof/Syntax.lean ====
section
/-! DEFINITION. The operations and frames of GOLFB: one constructor per row of the opcode table (R61 to R63, R68). -/

namespace Sys2Proof

/-- The eight commands the host gives the block (R68), and the three frames the block emits on TX (R61, R62, R63). The
frames are rows of the opcode table and not commands: no command word decodes to one, and the page serializer takes
them at its positions `(p, CMD)`, `(p, DATA)` and `INITFRAME` (R25; log 15). -/
inductive Instr where
  /-- CLEAR, `opc = 0x1` (R89). -/
  | clear
  /-- SETPIX `x, y, v`, `opc = 0x2` (R90). -/
  | setpix (x y : Coord) (v : Bool)
  /-- REFRESH, `opc = 0x3` (R98). -/
  | refresh
  /-- INIT, `opc = 0x4` (R104). -/
  | init
  /-- CALOAD, `opc = 0x8`; its grid is the side-band operand `GRID_IN` (R69, R120). -/
  | caload
  /-- CASEED, `opc = 0x9`; its seed is the side-band operand `SEED_IN` (R69, R122). -/
  | caseed
  /-- ADVANCE, `opc = 0xA` (R124). -/
  | advance
  /-- RDCELL `x, y`, `opc = 0xB` (R128). -/
  | rdcell (x y : Coord)
  /-- FRAME_PAGESEL, the page-select command frame of page `p` (R61, R97). -/
  | framePagesel (p : Byte)
  /-- FRAME_DATA, the data frame of the page the serializer stands at (R62, R99, R100). Its `W` data bytes are no operand:
  they are that page's bytes in `FB`. -/
  | frameData
  /-- FRAME_INIT, the initialization frame (R63). -/
  | frameInit
deriving DecidableEq, Repr, Inhabited

end Sys2Proof
end

