-- ==== Sys2Proof/WellFormed.lean ====
section
/-! DEFINITION. Which builds the spec admits (R7, R63, D25, U15) and which instructions are well formed (R96). -/

namespace Sys2Proof

/-- The bounds R7 puts on the dimensions: `W`, `H` positive multiples of 8 and at most `2^CW`, `NP <= 80`, `GW`, `GH`
positive and at most `2^CW`. A build outside them is refused (U15). -/
def Config.geometryLegal (c : Config) : Bool :=
  decide (1 ≤ c.w ∧ c.w % 8 = 0 ∧ c.w ≤ 256) &&
  decide (1 ≤ c.h ∧ c.h % 8 = 0 ∧ c.h ≤ 256) &&
  decide (1 ≤ c.np ∧ c.np ≤ 80) &&
  decide (1 ≤ c.gw ∧ c.gw ≤ 256) &&
  decide (1 ≤ c.gh ∧ c.gh ≤ 256)

/-- The two facts the source gives of `INIT_FRAME` (R63): its first byte is `0x00` and `0x7F` occurs in it. -/
def Config.initFrameLegal (c : Config) : Bool :=
  c.initFrame.head? == some Config.commandTag && c.initFrame.contains 0x7F#8

/-- A build the spec admits. -/
def Config.legal (c : Config) : Bool :=
  c.geometryLegal && c.initFrameLegal

/-- An instruction is well formed on a build: a page select names a page of the surface (R96, R97). The fields of the
commands have no illegal value: coordinates out of range are legal (R73). -/
def Instr.wellFormed (c : Config) : Instr → Bool
  | .clear => true
  | .setpix _ _ _ => true
  | .refresh => true
  | .init => true
  | .caload => true
  | .caseed => true
  | .advance => true
  | .rdcell _ _ => true
  | .framePagesel p => decide (p.toNat < c.np)
  | .frameData => true
  | .frameInit => true

end Sys2Proof
end

