-- ==== Sys2Proof/Decode.lean ====
section
/-! DEFINITION. The two encodings of GOLFB: command words in (R66 to R72), wire frames out (R61 to R65); the decoder, total
and rejecting by name, then the encoder. -/

namespace Sys2Proof

/-- What a decoder is given: a word on the command port, or the bytes of one frame on the TX port. -/
inductive Code where
  /-- The 32-bit word `CMD` (R66). -/
  | cmd (w : Word)
  /-- The bytes of one `BusSend`, in the order sent (R45). -/
  | frame (bytes : List Byte)
deriving DecidableEq, Repr

/-- Why the decoder rejects. -/
inductive Reject where
  /-- A reserved opcode (R71). -/
  | reservedOpcode (opc : BitVec 4)
  /-- A reserved bit is set (R72). -/
  | reservedBits (w : Word)
  /-- A frame is never empty (R44). -/
  | emptyFrame
  /-- The first byte of a frame is neither tag (R8). -/
  | unknownTag (b : Byte)
  /-- A data frame has `W+1` bytes (R62). -/
  | frameLength (n : Nat)
deriving DecidableEq, Repr

/-- `opc = CMD[31:28]` (R66). -/
def cmdOpc (w : Word) : BitVec 4 := w.extractLsb' 28 4

/-- `x = CMD[7:0]` (R67). -/
def cmdX (w : Word) : Coord := w.extractLsb' 0 8

/-- `y = CMD[15:8]` (R67). -/
def cmdY (w : Word) : Coord := w.extractLsb' 8 8

/-- `v = CMD[16]` (R67). -/
def cmdV (w : Word) : Bool := w.getLsbD 16

/-- A command without operands: every bit below the opcode is reserved (R72). -/
def decodePlain (w : Word) (i : Instr) : Except Reject Instr :=
  if w.extractLsb' 0 28 = 0#28 then .ok i else .error (.reservedBits w)

/-- The decoder of command words (R66 to R72). -/
def decodeCmd (w : Word) : Except Reject Instr :=
  if cmdOpc w = 0x1#4 then decodePlain w .clear
  else if cmdOpc w = 0x2#4 then
    if w.extractLsb' 17 11 = 0#11 then .ok (.setpix (cmdX w) (cmdY w) (cmdV w)) else .error (.reservedBits w)
  else if cmdOpc w = 0x3#4 then decodePlain w .refresh
  else if cmdOpc w = 0x4#4 then decodePlain w .init
  else if cmdOpc w = 0x8#4 then decodePlain w .caload
  else if cmdOpc w = 0x9#4 then decodePlain w .caseed
  else if cmdOpc w = 0xA#4 then decodePlain w .advance
  else if cmdOpc w = 0xB#4 then
    if w.extractLsb' 16 12 = 0#12 then .ok (.rdcell (cmdX w) (cmdY w)) else .error (.reservedBits w)
  else .error (.reservedOpcode (cmdOpc w))

/-- The page-select frame pattern (R61, R64): the page, if these bytes are one. `p <= 79` is `0xB0 + p <= 0xFF`. -/
def pageSelected (bytes : List Byte) : Option Byte :=
  match bytes with
  | [t, b, lo, hi] =>
    if t = Config.commandTag ∧ lo = Config.columnLow ∧ hi = Config.columnHigh ∧ Config.pageBase ≤ b
    then some (b - Config.pageBase)
    else none
  | _ => none

/-- The reader of wire frames: which of the three frames of R61, R62, R63 these bytes are. Of the initialization frame only
the tag is fixed (R63), so a command frame that is no page select is that frame. -/
def decodeFrame (c : Config) (bytes : List Byte) : Except Reject Instr :=
  match pageSelected bytes with
  | some p => .ok (.framePagesel p)
  | none =>
    match bytes with
    | [] => .error .emptyFrame
    | t :: rest =>
      if t = Config.commandTag then .ok .frameInit
      else if t = Config.dataTag then
        if rest.length = c.w then .ok .frameData else .error (.frameLength bytes.length)
      else .error (.unknownTag t)

/-- The decoder, total on words and on byte lists. -/
def decode (c : Config) : Code → Except Reject Instr
  | .cmd w => decodeCmd w
  | .frame bytes => decodeFrame c bytes

/-- `CMD = {opc, rsv, v, y, x}` with `rsv = 0` (R66). -/
def commandWord (opc : BitVec 4) (v : Bool) (y x : Coord) : Word :=
  opc ++ 0#11 ++ BitVec.ofBool v ++ y ++ x

/-- Byte 1 of the page-select frame: `(PAGE_BASE + p) mod 256` (R64). -/
def pageSelectByte (p : Byte) : Byte := Config.pageBase + p

/-- `CmdFrame(p)` (R61, R97). -/
def cmdFrame (p : Byte) : List Byte :=
  [Config.commandTag, pageSelectByte p, Config.columnLow, Config.columnHigh]

/-- A data frame: the tag, then the column bytes of a page (R62, R99). -/
def dataFrame (cols : List Byte) : List Byte := Config.dataTag :: cols

/-- The encoder, from the same tables as the decoder. The bytes of a data frame are not in the instruction: `cols` gives
the `W` column bytes of the page that is sent. -/
def encode (c : Config) (cols : List Byte) : Instr → Code
  | .clear => .cmd (commandWord 0x1#4 false 0#8 0#8)
  | .setpix x y v => .cmd (commandWord 0x2#4 v y x)
  | .refresh => .cmd (commandWord 0x3#4 false 0#8 0#8)
  | .init => .cmd (commandWord 0x4#4 false 0#8 0#8)
  | .caload => .cmd (commandWord 0x8#4 false 0#8 0#8)
  | .caseed => .cmd (commandWord 0x9#4 false 0#8 0#8)
  | .advance => .cmd (commandWord 0xA#4 false 0#8 0#8)
  | .rdcell x y => .cmd (commandWord 0xB#4 false y x)
  | .framePagesel p => .frame (cmdFrame p)
  | .frameData => .frame (dataFrame cols)
  | .frameInit => .frame c.initFrame

/-- The bytes of an `nbits`-bit row of the opcode table, the first byte sent in its highest bits (R12, R45: `{a, b}` has `a`
higher, and position 0 of a frame is its first byte). -/
def tableBytes (nbits w : Nat) : List Byte :=
  (List.range (nbits / 8)).map fun k => BitVec.ofNat 8 (w >>> (8 * (nbits / 8 - 1 - k)))

/-- The instruction the decoder reads from the bits of a row of the opcode table, on the default build. A 32-bit row is a
command word, or, where the command decoder refuses it, the 4-byte page-select frame; a row of another length is a
frame. -/
def decodeTableWord (nbits w : Nat) : Option Instr :=
  if nbits = 32 then
    match decode Config.default (.cmd (BitVec.ofNat 32 w)) with
    | .ok i => some i
    | .error _ => (pageSelected (tableBytes nbits w)).map .framePagesel
  else
    match decode Config.default (.frame (tableBytes nbits w)) with
    | .ok i => some i
    | .error _ => none

end Sys2Proof
end

