-- ==== Sys2Proof/Machine/State.lean ====
section
/-! DEFINITION. The state of GOLFB (10_state.md), the outcomes of a step, and the state after reset (R36, R163). -/

namespace Sys2Proof.Machine

/-- The written bytes of the framebuffer, by index; `Memory.wf` is its canonical form. -/
abbrev Memory := List Host.Cell

/-- One bus event `(A, bytes)`: one `BusSend` (R30, R44). -/
structure Event where
  /-- `A`, the device address. -/
  addr : Byte
  /-- The bytes, lowest position sent first. -/
  bytes : List Byte
deriving DecidableEq, Repr, Inhabited

/-- What the host puts on its ports when it offers a command (R69, R70): the command word and the two side-band
operands. Bit `y*GW + x` of `gridIn` is cell `(x, y)`; the port has `GW*GH` wires, so higher bits of the number are on no
wire. -/
structure Offer where
  /-- `cmd`. -/
  cmd : Word
  /-- `SEED_IN`. -/
  seedIn : Seed
  /-- `GRID_IN`. -/
  gridIn : Nat
deriving DecidableEq, Repr, Inhabited

/-- What the host can do (R183): offer a command, or assert the reset pin. -/
inductive HostAct where
  /-- `cmd_valid` with these ports. -/
  | offer (o : Offer)
  /-- The reset pin (R162). -/
  | resetPin
deriving DecidableEq, Repr, Inhabited

/-- Why the machine stops. The hardware has no exception (R142); this one is the model's. -/
inductive Fault where
  /-- An access to `FB` outside `0 .. N-1` (R48), raised by `memRead` and `memWrite`. SAFE: the spec says no such index can
  be produced, and no step from a state that meets `Safety.Inv` raises it. -/
  | fbIndex (a : Nat)
deriving DecidableEq, Repr

/-- Why the model gives no meaning (R14 `refuse`, R156). All of them are SAFE: a refused run proves nothing. -/
inductive Refusal where
  /-- The instruction has no meaning yet; raised by `exec` alone, which raises it nowhere. -/
  | notModelled (mnemonic : String)
  /-- A reserved opcode was offered (R71); raised by `step`. -/
  | reservedOpcode (opc : BitVec 4)
  /-- A reserved bit was set in the word offered (R72); raised by `step`. -/
  | reservedBits (w : Word)
  /-- The bytes are no frame of the block (R61 to R63); the command decoder never answers it, so no step raises it. -/
  | notAFrame
  /-- The build is outside R7 (U15); raised by `step`. -/
  | illegalConfiguration
  /-- A grid literal of another shape than the engine's (R121, U1); raised by the textual front end. -/
  | gridShape
deriving DecidableEq, Repr

/-- What an operation answers. -/
abbrev Result (α : Type) := Host.Outcome α Fault Refusal

/-- The state of the block and of its ports. Plain data. -/
structure State where
  /-- The build (R7, R31); no operation changes it. -/
  cfg : Config
  /-- `FB`, the bytes listed in canonical form (R19); see `State.fbBase` for the others. -/
  fb : Memory
  /-- `CUR` (R20). -/
  cur : Grid
  /-- `NXT` (R21). -/
  nxt : Grid
  /-- `FB_VALID` (R27). -/
  fbValid : Bool
  /-- `CA_VALID` (R27). -/
  caValid : Bool
  /-- `BUSY` (R26). -/
  busy : Bool
  /-- `RD_DATA` (R33). -/
  rdData : Bool
  /-- `SEQ` (R24). -/
  seq : Seq
  /-- The working registers (R22). -/
  regs : WorkRegs
  /-- `BUS` (R30). -/
  bus : List Event
  /-- Input: what the host does next, the first entry standing on the ports (R70, R174; log 12). -/
  host : List HostAct
  /-- Input: `SEED_IN` as last sampled (R69, R176). -/
  seedIn : Seed
  /-- Input: `GRID_IN` as last sampled (R69, R176). -/
  gridIn : Nat
  /-- Input: the level of `tx_ready` (R70, R177). -/
  txReady : Bool
  /-- Input: the levels `tx_ready` takes in the coming steps; after them it stays (log 11). -/
  txPlan : List Bool
  /-- The model's own: which draw of free values the last reset took for `FB` (log 4). -/
  powerUp : Nat
  /-- The model's own: how many free values have been drawn (log 4). -/
  fresh : Nat
  /-- The model's own mark: an RDCELL has run since reset, so `RD_DATA` counts in an observation (R182, U9; log 28). -/
  rdIssued : Bool
deriving DecidableEq, Repr

/-- What an index of `FB` that the memory does not list reads as: after CLEAR or INIT (`FB_VALID = 1`) the off byte `0x00`
they wrote (R89), before it the free byte it powered up with (R36, R166, U2). -/
def State.fbBase (s : State) (a : Nat) : Byte :=
  if s.fbValid then 0x00#8 else Config.fbPowerUp s.powerUp a

/-- The canonical form over a base: indices strictly rising and below `n`, no entry equal to the base there. -/
def Memory.wf (base : Nat → Byte) (n : Nat) (m : Memory) : Bool :=
  decide (m.Pairwise fun p q => p.1 < q.1) && m.all fun p => decide (p.1 < n) && !(p.2 == base p.1)

/-- The block right after a reset (R36, R163) that takes draw `n` of free values: idle, not busy, marks 0, `BUS` empty, and
all storage unspecified. -/
def State.powerOn (c : Config) (n : Nat) : State where
  cfg := c
  fb := []
  cur := gridOf c.gw c.gh (Config.curPowerUp n)
  nxt := gridOf c.gw c.gh (Config.freeCell n)
  fbValid := false
  caValid := false
  busy := false
  rdData := Config.freeRdData n
  seq := { Config.freeSeq n with op := .idle }
  regs := Config.freeRegs n
  bus := []
  host := []
  seedIn := Config.freeSeedIn n
  gridIn := Config.freeGridIn n
  txReady := true
  txPlan := []
  powerUp := n
  fresh := n + 1
  rdIssued := false

/-- The machine right after power-on (R36, R163), on the default build. -/
def State.reset : State := State.powerOn Config.default 0

end Sys2Proof.Machine
end

