-- ==== Sys2Proof/Machine/Ops.lean ====
section
/-! DEFINITION. The primitives of the pseudocode over state: sequencing of outcomes, `MemRead`, `MemWrite` (R14), `BusSend`
(R44), and the beats of a frame on the TX port (R70). GOLFB has no exception, so there is no operation that takes one and
none that returns from one (R142, R151, R152). -/

namespace Sys2Proof.Machine

/-- Go on with `k` where `o` answers a value; a stop stays that stop. -/
def andThen {α β : Type} (o : Result α) (k : α → Result β) : Result β :=
  match o with
  | .next a => k a
  | .fault r => .fault r
  | .refused r => .refused r

/-- The byte at index `a`: the listed one, or the base. -/
def Memory.read (base : Nat → Byte) (m : Memory) (a : Nat) : Byte :=
  match m with
  | [] => base a
  | c :: rest => if c.1 = a then c.2 else Memory.read base rest a

/-- The list without its entries at `a`. -/
def Memory.erase (a : Nat) (m : Memory) : Memory :=
  m.filter fun c => c.1 != a

/-- The entry `(a, b)` put before the first entry of a higher index. -/
def Memory.place (a : Nat) (b : Byte) (m : Memory) : Memory :=
  match m with
  | [] => [(a, b)]
  | c :: rest => if a < c.1 then (a, b) :: c :: rest else c :: Memory.place a b rest

/-- `FB[a] <- b`, in canonical form: writing the base's byte removes the entry. -/
def Memory.write (base : Nat → Byte) (a : Nat) (b : Byte) (m : Memory) : Memory :=
  if b = base a then Memory.erase a m else Memory.place a b (Memory.erase a m)

/-- `FB[a+k] <- v[k]` for every position `k` of `v` (R14). -/
def Memory.writeAll (base : Nat → Byte) (a : Nat) (v : List Byte) (m : Memory) : Memory :=
  match v with
  | [] => m
  | b :: rest => Memory.writeAll base (a + 1) rest (Memory.write base a b m)

/-- `FB[a]` (R13). -/
def fbByte (s : State) (a : Nat) : Byte :=
  Memory.read s.fbBase s.fb a

/-- `FB[a], ..., FB[a+n-1]`. -/
def fbBytes (s : State) (a n : Nat) : List Byte :=
  (List.range n).map fun k => fbByte s (a + k)

/-- `MemRead(FB, a, n)` (R14). An index outside `0 .. N-1` does not exist (R48). -/
def memRead (a n : Nat) (s : State) : Result (List Byte) :=
  if a + n ≤ s.cfg.n then .next (fbBytes s a n) else .fault (.fbIndex a)

/-- `MemRead(FB, a, 1)` as the one byte it gives. -/
def memReadByte (a : Nat) (s : State) : Result Byte :=
  if a + 1 ≤ s.cfg.n then .next (fbByte s a) else .fault (.fbIndex a)

/-- The framebuffer's list is `m`. -/
def setFb (m : Memory) (s : State) : State := { s with fb := m }

/-- `MemWrite(FB, a, n, v)`, `n` the length of `v` (R14). -/
def memWrite (a : Nat) (v : List Byte) (s : State) : Result State :=
  if a + v.length ≤ s.cfg.n then .next (setFb (Memory.writeAll s.fbBase a v s.fb) s)
  else .fault (.fbIndex a)

/-- `BusSend(DEV_ADDR, bytes)`: `BUS <- BUS ++ [(A, bytes)]` (R44, R108). It cannot fail (R145). -/
def busSend (bytes : List Byte) (s : State) : State :=
  { s with bus := s.bus ++ [{ addr := s.cfg.devAddr, bytes := bytes }] }

/-- What the TX port shows while it offers one byte (R70). -/
structure Beat where
  /-- `tx_addr`. -/
  addr : Byte
  /-- `tx_data`. -/
  data : Byte
  /-- `tx_first`. -/
  first : Bool
  /-- `tx_last`. -/
  last : Bool
deriving DecidableEq, Repr

/-- The beats of the bytes of a frame, `first` telling whether its position 0 is still to come (R70). -/
def beatsFrom (addr : Byte) (first : Bool) (bytes : List Byte) : List Beat :=
  match bytes with
  | [] => []
  | b :: rest => { addr := addr, data := b, first := first, last := rest.isEmpty } :: beatsFrom addr false rest

/-- The beats of one event (R70). -/
def eventBeats (e : Event) : List Beat := beatsFrom e.addr true e.bytes

/-- Everything the TX port has carried, beat by beat (R70). -/
def txBeats (bus : List Event) : List Beat := bus.flatMap eventBeats

/-- The bytes of the frame in progress once this beat is taken: a `tx_first` starts a new frame (R70). -/
def takeBeat (acc : List Byte) (b : Beat) : List Byte :=
  (if b.first then [] else acc) ++ [b.data]

/-- A frame is the run of accepted bytes from a `tx_first` to the next `tx_last` (R70); `acc` holds the bytes of the frame in
progress. -/
def eventsOfBeats (acc : List Byte) (beats : List Beat) : List Event :=
  match beats with
  | [] => []
  | b :: rest =>
    if b.last then { addr := b.addr, bytes := takeBeat acc b } :: eventsOfBeats [] rest
    else eventsOfBeats (takeBeat acc b) rest

end Sys2Proof.Machine
end

