-- ==== Sys2Proof/Machine/Flags.lean ====
section
/-! DEFINITION. The flags of GOLFB: `BUSY` with the sequencer position that sets and clears it (R24, R26), the marks
`FB_VALID` and `CA_VALID` (R27), and their views on the pins (R32, R70). There are no condition codes (R28). -/

namespace Sys2Proof.Machine

/-- A command is accepted: `SEQ.op` is the operation and `BUSY` is 1 (R24, R26). -/
def accept (op : SeqOp) (s : State) : State :=
  { s with busy := true, seq := { s.seq with op := op } }

/-- The operation's last write and last `BusSend` are complete: `SEQ.op` is `IDLE` and `BUSY` is 0 (R24, R26). -/
def finish (s : State) : State :=
  { s with busy := false, seq := { s.seq with op := .idle } }

/-- `FB_VALID <- 1` (R27). -/
def markFbValid (s : State) : State := { s with fbValid := true }

/-- `CA_VALID <- 1` (R27). -/
def markCaValid (s : State) : State := { s with caValid := true }

/-- The block stands at an operation boundary (R24): nothing is in progress. -/
def atBoundary (s : State) : Bool := !s.busy && s.seq.op == .idle

/-- The `cmd_ready` pin, `= not BUSY` (R70). -/
def cmdReady (s : State) : Bool := !s.busy

/-- The `cmd_valid` pin: the host offers a command (R70). -/
def cmdValid (s : State) : Bool :=
  match s.host with
  | .offer _ :: _ => true
  | .resetPin :: _ => false
  | [] => false

/-- `STATUS` at any width: bit 0 is `BUSY`, every other bit reads 0 (R32). -/
def statusWord (width : Nat) (s : State) : BitVec width := BitVec.ofNat width s.busy.toNat

end Sys2Proof.Machine
end

