-- ==== Sys2Proof/Machine/Operands.lean ====
section
/-! DEFINITION. The operand forms of GOLFB: a pixel address (R84), its bit mask (R88), a page's tag slot and column bytes
(R41, R99), the side-band grid (R69), and the textual front end's grid literal (R76, R121). -/

namespace Sys2Proof.Machine

/-- ADEC (R84): `(IDX, BIT)` of an in-range pixel, none where `INR` is 0. The range test comes first. -/
def adec (c : Config) (x y : Coord) : Option (Nat × BitVec 3) :=
  if x.toNat < c.w ∧ y.toNat < c.h then
    some (y.toNat / 8 * c.w + x.toNat + 1, BitVec.ofNat 3 (y.toNat % 8))
  else none

/-- `MASK = 1 << BIT` (R88, R46). -/
def bitMask (bit : BitVec 3) : Byte := 1#8 <<< bit.toNat

/-- The byte SETPIX writes back: `old | MASK` for `v = 1`, `old & ~MASK` for `v = 0` (R90). -/
def withBit (old : Byte) (bit : BitVec 3) (v : Bool) : Byte :=
  if v then old ||| bitMask bit else old &&& ~~~ bitMask bit

/-- The command's coordinates are latched in `X` and `Y` (R22). -/
def latchXY (x y : Coord) (s : State) : State :=
  { s with regs := { s.regs with x := x, y := y } }

/-- SETPIX's value operand is latched in `V` (R22). -/
def latchV (v : Bool) (s : State) : State :=
  { s with regs := { s.regs with v := v } }

/-- ADEC writes `INR`, `IDX`, `BIT` (R84, R22); out of range `IDX` and `BIT` are unspecified (U8), so free values. -/
def latchAdec (x y : Coord) (s : State) : State :=
  match adec s.cfg x y with
  | some (idx, bit) => { s with regs := { s.regs with inr := true, idx := idx, bit := bit } }
  | none =>
    { s with
      regs := { s.regs with
        inr := false
        idx := (Config.freeRegs s.fresh).idx
        bit := (Config.freeRegs s.fresh).bit }
      fresh := s.fresh + 1 }

/-- The tag slot of page `p`, `FB[p*W]` (R41). -/
def tagSlot (c : Config) (p : Nat) : Nat := p * c.w

/-- The column bytes of page `p`, `FB[p*W+1 .. p*W+W]` (R41, R99). -/
def pageCols (s : State) (p : Nat) : List Byte := fbBytes s (p * s.cfg.w + 1) s.cfg.w

/-- `GRID_IN` as a matrix: bit `y*GW + x` is cell `(x, y)` (R69). -/
def gridOfPort (gw gh port : Nat) : Grid :=
  gridOf gw gh fun x y => port.testBit (y * gw + x)

/-- The bits of a row, `x = 0` in bit 0. -/
def packRow (row : List Bool) : Nat :=
  match row with
  | [] => 0
  | b :: rest => b.toNat + 2 * packRow rest

/-- The port value of a grid literal: row 0 first, and `x = 0` first within a row (R69, R76). -/
def packGrid (rows : Grid) : Nat := packRow rows.flatten

/-- The textual front end's `CALOAD [[...], ...]` (R76): the offer, or a refusal where the literal has another shape than
`GH` rows of `GW` bits (R121, R147); it never truncates or pads. -/
def caloadLiteral (c : Config) (rows : Grid) (seedIn : Seed) : Result Offer :=
  if gridShape c.gw c.gh rows then
    .next { cmd := commandWord 0x8#4 false 0#8 0#8, seedIn := seedIn, gridIn := packGrid rows }
  else .refused .gridShape

end Sys2Proof.Machine
end

