-- ==== Sys2Proof/Machine/Automaton.lean ====
section
/-! DEFINITION. The automaton engine CA (42_automaton.md): neighbour counter, transition rule, CALOAD, CASEED, ADVANCE,
RDCELL. -/

namespace Sys2Proof.Machine

/-- `Alive(G, i, j)` (R113), `i` and `j` integers: a position outside the grid counts as dead and is never read. -/
def alive (c : Config) (g : Grid) (i j : Int) : Bool :=
  decide (0 ≤ i ∧ i < c.gw ∧ 0 ≤ j ∧ j < c.gh) && cell g i.toNat j.toNat

/-- The eight offsets `(dx, dy)` of a neighbourhood (R113). -/
def offsets : List (Int × Int) :=
  [(-1, -1), (0, -1), (1, -1), (-1, 0), (1, 0), (-1, 1), (0, 1), (1, 1)]

/-- `Count(G, x, y)` (R114), `0 .. 8`. -/
def count (c : Config) (g : Grid) (x y : Nat) : Nat :=
  (offsets.map fun d => (alive c g (x + d.1) (y + d.2)).toNat).sum

/-- `NCNT = min(Count, 4)` (R115). -/
def satCount (c : Config) (g : Grid) (x y : Nat) : Nat := min (count c g x y) 4

/-- `Next(a, n)` (R117). -/
def nextCell (a : Bool) (n : Nat) : Bool := n == 3 || (a && n == 2)

/-- `NextGen(G)` (R119). -/
def nextGen (c : Config) (g : Grid) : Grid :=
  gridOf c.gw c.gh fun x y => nextCell (cell g x y) (satCount c g x y)

/-- The end of a scan of all cells: `NXT` is unspecified (R120, R122, R125), and so are `CX` and `CY` within their ranges,
since the order of the scan is not fixed (R25, R126); free values. -/
def endScan (s : State) : State :=
  { s with
    nxt := gridOf s.cfg.gw s.cfg.gh (Config.freeCell s.fresh)
    seq := { s.seq with
      cx := (Config.freeSeq s.fresh).cx % s.cfg.gw
      cy := (Config.freeSeq s.fresh).cy % s.cfg.gh }
    fresh := s.fresh + 1 }

/-- After ADVANCE's scan `NCNT` holds the count of whichever cell came last (R126): a free value in `0 .. 4` (R115). -/
def leaveCount (s : State) : State :=
  { s with regs := { s.regs with ncnt := BitVec.ofNat 3 ((Config.freeRegs s.fresh).ncnt.toNat % 5) } }

/-- `CUR <- g` for every cell. -/
def setCur (g : Grid) (s : State) : State := { s with cur := g }

/-- `NXT <- g` for every cell. -/
def setNxt (g : Grid) (s : State) : State := { s with nxt := g }

/-- `RD_DATA <- b` (R33), which RDCELL alone does; from then on the register counts (R182; log 28). -/
def setRdData (b : Bool) (s : State) : State := { s with rdData := b, rdIssued := true }

/-- CALOAD (R120): `CUR` is `GRID_IN`. -/
def execCaload (s : State) : Host.Outcome State Fault Refusal :=
  .next (finish (endScan (markCaValid
    (setCur (gridOfPort s.cfg.gw s.cfg.gh s.gridIn) (accept .caload s)))))

/-- CASEED (R122): `CUR` is `PRNG_FILL(SEED_IN, GW, GH)`. -/
def execCaseed (s : State) : Host.Outcome State Fault Refusal :=
  .next (finish (endScan (markCaValid
    (setCur (gridOf s.cfg.gw s.cfg.gh (Config.prngFill s.seedIn s.cfg.gw s.cfg.gh)) (accept .caseed s)))))

/-- ADVANCE (R124, R125): `NXT` is computed from `CUR`, then `CUR` is `NXT`. On cells nothing has written since reset it
reads their free power-up values (R166; log 2). -/
def execAdvance (s : State) : Host.Outcome State Fault Refusal :=
  let s1 := setNxt (nextGen s.cfg s.cur) (accept .advance s)
  let s2 := setCur s1.nxt s1
  .next (finish (endScan (leaveCount s2)))

/-- RDCELL `x, y` (R128): `RD_DATA` is `Alive(CUR, x, y)`, so 0 outside the grid. -/
def execRdcell (x y : Coord) (s : State) : Host.Outcome State Fault Refusal :=
  .next (finish (setRdData (alive s.cfg s.cur x.toNat y.toNat) (latchXY x y (accept .rdcell s))))

end Sys2Proof.Machine
end

