-- ==== Sys2Proof/Machine/Surface.lean ====
section
/-! DEFINITION. The pixel surface: CLEAR and SETPIX (40_pixel_surface.md). -/

namespace Sys2Proof.Machine

/-- `for i = 0 to N-1 do FB[i] <- 0x00 end`, `FB_VALID <- 1` (R89): every byte is the base byte of a valid framebuffer, so
none is listed. -/
def clearFb (s : State) : State := markFbValid (setFb [] s)

/-- CLEAR (R89). -/
def execClear (s : State) : Host.Outcome State Fault Refusal :=
  .next (finish (clearFb (accept .clear s)))

/-- The read-modify-write of an in-range SETPIX (R90), at the index and bit ADEC left in `IDX` and `BIT`. -/
def writePixel (v : Bool) (s : State) : Host.Outcome State Fault Refusal :=
  andThen (memReadByte s.regs.idx s) fun old => memWrite s.regs.idx [withBit old s.regs.bit v] s

/-- SETPIX `x, y, v` (R90, R91). On a framebuffer nothing has written since reset it reads the free power-up byte (R166;
log 1); out of range it writes nothing (R73, R144). -/
def execSetpix (x y : Coord) (v : Bool) (s : State) : Host.Outcome State Fault Refusal :=
  let s1 := latchAdec x y (latchV v (latchXY x y (accept .setpix s)))
  if s1.regs.inr then andThen (writePixel v s1) fun s2 => .next (finish s2)
  else .next (finish s1)

end Sys2Proof.Machine
end

