-- ==== Sys2Proof/Machine/Serializer.lean ====
section
/-! DEFINITION. The page serializer PSER (41_page_serializer.md): its three frames, REFRESH, INIT, and how an operation the
transport holds up goes on from its sequencer position (R25, R177). -/

namespace Sys2Proof.Machine

/-- The sequencer moves to phase `ph` of page `p` (R24, R25). -/
def moveTo (p : Nat) (ph : Phase) (s : State) : State :=
  { s with seq := { s.seq with p := p, ph := ph } }

/-- The page-select frame of page `p` is sent (R97, R98). -/
def sendCmdFrame (p : Nat) (s : State) : State :=
  busSend (cmdFrame (BitVec.ofNat 8 p)) s

/-- `SAVED <- b` (R22, R100). -/
def saveSlot (b : Byte) (s : State) : State :=
  { s with regs := { s.regs with saved := b } }

/-- `SendPage(p)` (R100): save the tag slot, write `DATA_TAG` there, send the span, restore the slot. -/
def sendPage (p : Nat) (s : State) : Host.Outcome State Fault Refusal :=
  andThen (memReadByte (tagSlot s.cfg p) s) fun b =>
  andThen (memWrite (tagSlot s.cfg p) [Config.dataTag] (saveSlot b s)) fun s1 =>
  andThen (memRead (tagSlot s.cfg p) (s.cfg.w + 1) s1) fun span =>
  memWrite (tagSlot s.cfg p) [s1.regs.saved] (busSend span s1)

/-- FRAME_PAGESEL `p` (R61, R97): the page-select frame goes out. While the transport is not ready it waits (R70). -/
def execFramePagesel (p : Byte) (s : State) : Host.Outcome State Fault Refusal :=
  .next (if s.txReady then busSend (cmdFrame p) s else s)

/-- FRAME_DATA (R62, R99, R100): the data frame of the page `SEQ.P` goes out, on unwritten `FB` with the free power-up bytes
(R166; log 1). While the transport is not ready it waits (R70), the tag not yet borrowed: `FB[p*W]` holds the pixel byte and
`SAVED` its old value, where D9 and U14 leave open what they hold (DESIGN CHOICE, unsafe; log 31). -/
def execFrameData (s : State) : Host.Outcome State Fault Refusal :=
  if s.txReady then sendPage s.seq.p s else .next s

/-- FRAME_INIT (R63): `INIT_FRAME` goes out, one frame. While the transport is not ready it waits (R70). -/
def execFrameInit (s : State) : Host.Outcome State Fault Refusal :=
  .next (if s.txReady then busSend s.cfg.initFrame s else s)

/-- The two frames of each page of a list, in the list's order (R98): the position `(p, CMD)`, then `(p, DATA)`. -/
def sendPages (pages : List Nat) (s : State) : Host.Outcome State Fault Refusal :=
  match pages with
  | [] => .next s
  | p :: rest =>
    andThen (sendPage p (moveTo p .data (sendCmdFrame p (moveTo p .cmd s)))) fun s1 => sendPages rest s1

/-- The pages in ascending order, `0 .. NP-1` (R98, R106). -/
def allPages (c : Config) : List Nat := List.range c.np

/-- REFRESH (R98). Where the transport is not ready the operation stands at its first frame, `BUSY = 1` (R177). -/
def execRefresh (s : State) : Host.Outcome State Fault Refusal :=
  if s.txReady then andThen (sendPages (allPages s.cfg) (accept .refresh s)) fun s1 => .next (finish s1)
  else .next (moveTo 0 .cmd (accept .refresh s))

/-- INIT (R104): the initialization frame, then clear, then refresh. Where the transport is not ready the operation stands
at the initialization frame, `BUSY = 1` (R177). `SEQ.P` is 0 while it stands there, which is the model's choice: R24 and R25
give `P` a value at the page positions only (DESIGN CHOICE, unsafe; log 29). -/
def execInit (s : State) : Host.Outcome State Fault Refusal :=
  if s.txReady then
    andThen (sendPages (allPages s.cfg) (clearFb (busSend s.cfg.initFrame (accept .init s)))) fun s1 =>
      .next (finish s1)
  else .next (moveTo 0 .initFrame (accept .init s))

/-- Where the sequencer goes after the frame at its position (R25): INIT's clear and the first page after the
initialization frame, the data frame after a page select, then the next page or the end. -/
def afterFrame (s : State) : State :=
  match s.seq.ph with
  | .initFrame => moveTo 0 .cmd (clearFb s)
  | .cmd => moveTo s.seq.p .data s
  | .data => if s.seq.p + 1 < s.cfg.np then moveTo (s.seq.p + 1) .cmd s else finish s

/-- The frame at the sequencer's position goes out (R25). -/
def frameAtPosition (s : State) : Host.Outcome State Fault Refusal :=
  match s.seq.ph with
  | .initFrame => execFrameInit s
  | .cmd => execFramePagesel (BitVec.ofNat 8 s.seq.p) s
  | .data => execFrameData s

/-- The bytes of the frame at the sequencer's position, as they go out (R61, R62, R63, R25). -/
def frameBytes (s : State) : List Byte :=
  match s.seq.ph with
  | .initFrame => s.cfg.initFrame
  | .cmd => cmdFrame (BitVec.ofNat 8 s.seq.p)
  | .data => dataFrame (pageCols s s.seq.p)

/-- The pins `tx_addr`, `tx_data`, `tx_first`, `tx_last` while the block offers a byte, none while it offers none (R70).
Between two steps only REFRESH and INIT can stand at a frame, of which nothing has gone out, so the byte offered is the
frame's position 0 (logs 11, 19). -/
def txOffered (s : State) : Option Beat :=
  if s.busy && (s.seq.op == .refresh || s.seq.op == .init) then
    (eventBeats { addr := s.cfg.devAddr, bytes := frameBytes s }).head?
  else none

/-- The `tx_valid` pin: a byte is offered (R70). -/
def txValid (s : State) : Bool := (txOffered s).isSome

/-- REFRESH or INIT goes on from its position by one frame; while the transport is not ready it stays there (R177),
with nothing of that frame done, the tag borrow included (log 31). -/
def resumeFrames (s : State) : Host.Outcome State Fault Refusal :=
  if s.txReady then andThen (frameAtPosition s) fun s1 => .next (afterFrame s1) else .next s

end Sys2Proof.Machine
end

