-- ==== Sys2Proof/Machine/Dispatch.lean ====
section
/-! DEFINITION. The meaning of every instruction: one arm per constructor of Instr. -/

namespace Sys2Proof.Machine

def exec (i : Instr) (s : State) : Host.Outcome State Fault Refusal :=
  match i with
  | .clear => Sys2Proof.Machine.execClear s
  | .setpix x y v => Sys2Proof.Machine.execSetpix x y v s
  | .refresh => Sys2Proof.Machine.execRefresh s
  | .init => Sys2Proof.Machine.execInit s
  | .caload => Sys2Proof.Machine.execCaload s
  | .caseed => Sys2Proof.Machine.execCaseed s
  | .advance => Sys2Proof.Machine.execAdvance s
  | .rdcell x y => Sys2Proof.Machine.execRdcell x y s
  | .framePagesel p => Sys2Proof.Machine.execFramePagesel p s
  | .frameData => Sys2Proof.Machine.execFrameData s
  | .frameInit => Sys2Proof.Machine.execFrameInit s

end Sys2Proof.Machine
end

