-- ==== Sys2Proof/Machine/Port.lean ====
section
/-! DEFINITION. The block at its ports (R70): sampling inputs, accepting a command, the reset pin, going on with an operation
in progress, and putting a row of the opcode table where the next step takes it. -/

namespace Sys2Proof.Machine

/-- `tx_ready` takes its next level, where the transport has one planned (R70, R177; log 11). -/
def sampleTx (s : State) : State :=
  match s.txPlan with
  | [] => s
  | b :: rest => { s with txReady := b, txPlan := rest }

/-- The level at which `tx_ready` stays in the end: the last one planned, or the present one. That it is 1 is the fairness of
R177: the transport eventually takes every byte it is offered. -/
def txEndsReady (s : State) : Bool := (s.txPlan.getLast?).getD s.txReady

/-- The offered command leaves the ports and its side-band operands are sampled (R69, R176). -/
def takeOffer (o : Offer) (rest : List HostAct) (s : State) : State :=
  { s with host := rest, seedIn := o.seedIn, gridIn := o.gridIn }

/-- The reset pin (R162, R163): the state of R36, with a new draw of free values. The build is not state, and what the host
and the transport do next is theirs. -/
def assertReset (rest : List HostAct) (s : State) : State :=
  { State.powerOn s.cfg s.fresh with
    host := rest
    seedIn := s.seedIn
    gridIn := s.gridIn
    txReady := s.txReady
    txPlan := s.txPlan }

/-- A rejected word is a refusal of the model (R156). -/
def refusalOf (r : Reject) : Refusal :=
  match r with
  | .reservedOpcode opc => .reservedOpcode opc
  | .reservedBits w => .reservedBits w
  | .emptyFrame => .notAFrame
  | .unknownTag _ => .notAFrame
  | .frameLength _ => .notAFrame

/-- The command port at an operation boundary (R70): nothing offered leaves the state held (R160, R164); an offered word is
decoded first (R150) and then run as one operation. -/
def acceptCommand (s : State) : Host.Outcome State Fault Refusal :=
  match s.host with
  | [] => .next s
  | .resetPin :: rest => .next (assertReset rest s)
  | .offer o :: rest =>
    match decode s.cfg (.cmd o.cmd) with
    | .ok i => exec i (takeOffer o rest s)
    | .error r => .refused (refusalOf r)

/-- An operation in progress goes on; no command is accepted (R174). REFRESH and INIT stand at a frame the transport held
up and go on frame by frame. The others wait for nothing, so no run of the model stands inside one; from such a state they
run from the operands latched at acceptance (log 24). -/
def resumeOperation (s : State) : Host.Outcome State Fault Refusal :=
  match s.seq.op with
  | .idle => .next s
  | .refresh => resumeFrames s
  | .init => resumeFrames s
  | .clear => execClear s
  | .setpix => execSetpix s.regs.x s.regs.y s.regs.v s
  | .caload => execCaload s
  | .caseed => execCaseed s
  | .advance => execAdvance s
  | .rdcell => execRdcell s.regs.x s.regs.y s

/-- One step of the block at its ports: a command is taken when `cmd_ready = not BUSY` (R70). A build outside R7 is refused
(U15). -/
def stepPorts (s : State) : Host.Outcome State Fault Refusal :=
  if s.cfg.geometryLegal then
    if cmdReady (sampleTx s) then acceptCommand (sampleTx s) else resumeOperation (sampleTx s)
  else .refused .illegalConfiguration

/-- This word stands on the command port before everything else the host does, its side-band ports as last sampled. -/
def offerFirst (w : Word) (s : State) : State :=
  { s with host := .offer { cmd := w, seedIn := s.seedIn, gridIn := s.gridIn } :: s.host }

/-- The block idle, with this word standing on its command port. -/
def offerWord (w : Word) (s : State) : State := offerFirst w (finish s)

/-- The serializer standing at a frame the transport is ready for. -/
def standAt (op : SeqOp) (p : Nat) (ph : Phase) (s : State) : State :=
  moveTo p ph (accept op { s with txReady := true, txPlan := [] })

/-- A row of the opcode table placed where the next step takes it (log 12, log 15): a command word on the command port; a
frame at the serializer's position that sends it, for a data frame with its bytes in page 0 of `FB`, for the initialization
frame with `SEQ.P` 0 (log 29). -/
def placeWord (s : State) (nbits w : Nat) : State :=
  match decodeTableWord nbits w with
  | some (.framePagesel p) => standAt .refresh p.toNat .cmd s
  | some .frameData =>
    standAt .refresh 0 .data
      (setFb (Memory.writeAll s.fbBase 1 (((tableBytes nbits w).drop 1).take s.cfg.w) s.fb) s)
  | some .frameInit => standAt .init 0 .initFrame s
  | some .clear => offerWord (BitVec.ofNat 32 w) s
  | some (.setpix _ _ _) => offerWord (BitVec.ofNat 32 w) s
  | some .refresh => offerWord (BitVec.ofNat 32 w) s
  | some .init => offerWord (BitVec.ofNat 32 w) s
  | some .caload => offerWord (BitVec.ofNat 32 w) s
  | some .caseed => offerWord (BitVec.ofNat 32 w) s
  | some .advance => offerWord (BitVec.ofNat 32 w) s
  | some (.rdcell _ _) => offerWord (BitVec.ofNat 32 w) s
  | none => offerWord (BitVec.ofNat 32 w) s

end Sys2Proof.Machine
end

