-- ==== Sys2Proof/Machine/Step.lean ====
section
/-! DEFINITION. One step of the machine, and a row of the opcode table placed where the next step takes it. -/

namespace Sys2Proof.Machine

/-- One step (R15): see `stepPorts`. -/
def step (s : State) : Host.Outcome State Fault Refusal := stepPorts s

/-- `s` with the row of `nbits` bits `w` placed where its next step takes it: see `placeWord`. -/
def State.withFetchWord (s : State) (nbits w : Nat) : State := placeWord s nbits w

end Sys2Proof.Machine
end

