-- ==== Sys2Proof/Machine/Compose.lean ====
section
/-! DEFINITION. The pseudo-operations RENDER, GETGRID, BOOT, FRAMELOOP (43_composition.md): fixed sequences of operations the
host issues, none with an encoding of its own (R78). -/

namespace Sys2Proof.Machine

/-- The cell positions of row `y`, `x` ascending. -/
def rowPositions (c : Config) (y : Nat) : List (Nat × Nat) := (List.range c.gw).map fun x => (x, y)

/-- Every cell position `(x, y)`, `y` outer and `x` inner, ascending: the order R134 writes for RENDER, and for GETGRID, where
R136, R77 and R78 give none, the model's choice (DESIGN CHOICE, unsafe; log 32). -/
def cellPositions (c : Config) : List (Nat × Nat) :=
  (List.range c.gh).flatMap (rowPositions c)

/-- `k` steps, stopping at the first stop. -/
def steps (k : Nat) (s : State) : Result State :=
  match k with
  | 0 => .next s
  | n + 1 => andThen (step s) fun s1 => steps n s1

/-- The host waits for `BUSY` to fall (R18, R149), for at most `fuel` steps of the block. -/
def waitIdle (fuel : Nat) (s : State) : Result State :=
  match fuel with
  | 0 => .next s
  | n + 1 => if s.busy then andThen (step s) fun s1 => waitIdle n s1 else .next s

/-- The host waits for `BUSY` to fall. After the planned levels of `tx_ready` and the frames of one INIT the block is idle, or
the transport is never ready again and the block hangs with `BUSY` 1 (R177): then the answer is the hung state. -/
def awaitIdle (s : State) : Result State := waitIdle (s.txPlan.length + 2 * s.cfg.np + 1) s

/-- The host issues one command and waits for it to finish (R18): it waits for an operation in progress (R174), puts the word
on the command port and waits again. While the block hangs it issues nothing. -/
def issue (w : Word) (s : State) : Result State :=
  andThen (awaitIdle s) fun s1 =>
    if s1.busy then .next s1 else andThen (step (offerFirst w s1)) fun s2 => awaitIdle s2

/-- `RDCELL x, y` issued by the host (R128). -/
def issueRdcell (x y : Nat) (s : State) : Result State :=
  issue (commandWord 0xB#4 false (BitVec.ofNat 8 y) (BitVec.ofNat 8 x)) s

/-- `SETPIX x, y, v` issued by the host (R90). -/
def issueSetpix (x y : Nat) (v : Bool) (s : State) : Result State :=
  issue (commandWord 0x2#4 v (BitVec.ofNat 8 y) (BitVec.ofNat 8 x)) s

/-- REFRESH issued by the host (R98). -/
def issueRefresh (s : State) : Result State := issue 0x30000000#32 s

/-- ADVANCE issued by the host (R124). -/
def issueAdvance (s : State) : Result State := issue 0xA0000000#32 s

/-- RENDER's work on one cell (R134): the host reads it with RDCELL and writes it with SETPIX. -/
def renderCell (x y : Nat) (s : State) : Result State :=
  andThen (issueRdcell x y s) fun s1 => issueSetpix x y s1.rdData s1

/-- RENDER on a list of cells. -/
def renderCells (cells : List (Nat × Nat)) (s : State) : Result State :=
  match cells with
  | [] => .next s
  | p :: rest => andThen (renderCell p.1 p.2 s) fun s1 => renderCells rest s1

/-- RENDER (R134). -/
def render (s : State) : Result State := renderCells (cellPositions s.cfg) s

/-- The values RDCELL gives for a list of cells, and the state after the last. `RD_DATA` is sampled only once `BUSY` has fallen
(R183), so nothing is collected from a block that hangs. -/
def readCells (cells : List (Nat × Nat)) (s : State) : Result (List Bool × State) :=
  match cells with
  | [] => .next ([], s)
  | p :: rest =>
    andThen (issueRdcell p.1 p.2 s) fun s1 =>
      if s1.busy then .next ([], s1)
      else andThen (readCells rest s1) fun r => .next (s1.rdData :: r.1, r.2)

/-- The rows RDCELL gives for a list of rows of cells, and the state after the last. A block that hangs gives the rows, and of
the row it hangs in the cells, read until then (log 22). -/
def readRows (rows : List (List (Nat × Nat))) (s : State) : Result (Grid × State) :=
  match rows with
  | [] => .next ([], s)
  | row :: rest =>
    andThen (readCells row s) fun r =>
      if r.2.busy then .next ([r.1], r.2)
      else andThen (readRows rest r.2) fun q => .next (r.1 :: q.1, q.2)

/-- GETGRID (R136): RDCELL over every cell, the results collected into a `GH x GW` matrix. That the RDCELLs are issued in the order of
`cellPositions`, so that `RD_DATA` holds the cell `(GW-1, GH-1)` afterwards, is the model's choice (log 32). -/
def getGrid (s : State) : Result (Grid × State) := readRows ((List.range s.cfg.gh).map (rowPositions s.cfg)) s

/-- BOOT `s` (R137) as what the host does: CASEED with the seed, then INIT. -/
def bootActs (seed : Seed) (gridIn : Nat) : List HostAct :=
  [.offer { cmd := 0x90000000#32, seedIn := seed, gridIn := gridIn },
   .offer { cmd := 0x40000000#32, seedIn := seed, gridIn := gridIn }]

/-- One iteration of FRAMELOOP (R139): render, transmit, advance, each command issued only once the one before has finished
(R174, R175). -/
def frameIteration (s : State) : Result State :=
  andThen (render s) fun s1 => andThen (issueRefresh s1) fun s2 => issueAdvance s2

/-- `k` iterations of FRAMELOOP (R139), which the hardware never ends by itself (R182). -/
def frameLoop (k : Nat) (s : State) : Result State :=
  match k with
  | 0 => .next s
  | n + 1 => andThen (frameIteration s) fun s1 => frameLoop n s1

/-- `k` ADVANCE operations in a row (R129); each ends with `BUSY` 0, so none is issued while another runs. -/
def advanceMany (k : Nat) (s : State) : Result State :=
  match k with
  | 0 => .next s
  | n + 1 => andThen (exec .advance s) fun s1 => advanceMany n s1

end Sys2Proof.Machine
end

