-- ==== Sys2Proof/Safety.lean ====
section
/-! DEFINITION. What counts as a good state and as an ended run, and what a run shows, in the terms the statements use. -/

namespace Sys2Proof.Safety

open Sys2Proof.Machine

/-- What every state of a run meets on an admitted build. -/
structure Inv (s : State) : Prop where
  /-- The build is one the spec admits (R7, R63). -/
  cfgLegal : s.cfg.legal = true
  /-- The framebuffer's list is in canonical form, and lists no index outside `0 .. N-1` (R48). -/
  fbWf : Memory.wf s.fbBase s.cfg.n s.fb = true
  /-- `CUR` is a `GH x GW` matrix (R20). -/
  curShape : gridShape s.cfg.gw s.cfg.gh s.cur = true
  /-- `NXT` has the same shape (R21). -/
  nxtShape : gridShape s.cfg.gw s.cfg.gh s.nxt = true
  /-- `BUSY` is 1 exactly while `SEQ.op` is not `IDLE` (R26). -/
  busyIff : s.busy = true ↔ s.seq.op ≠ .idle
  /-- Only REFRESH and INIT, which wait for the transport, are in progress between two steps (R177). -/
  opWaits : s.seq.op = .idle ∨ s.seq.op = .refresh ∨ s.seq.op = .init
  /-- The page whose frames are sent is a page of the surface (R24). -/
  pageInRange : s.seq.op ≠ .idle → s.seq.ph ≠ .initFrame → s.seq.p < s.cfg.np
  /-- Only INIT stands at the initialization frame (R25). -/
  initPhase : s.seq.op = .refresh → s.seq.ph ≠ .initFrame
  /-- Every frame went to `DEV_ADDR` and is not empty (R44, R108). -/
  busOk : ∀ e ∈ s.bus, e.addr = s.cfg.devAddr ∧ e.bytes ≠ []

/-- The operation reads storage that nothing has written since reset (R27, R166): the spec asks the host never to issue it
so (R165), and this model runs it on the free power-up values (logs 1, 2). -/
def readsUnwritten (i : Instr) (s : State) : Bool :=
  match i with
  | .clear => false
  | .setpix _ _ _ => !s.fbValid
  | .refresh => !s.fbValid
  | .init => false
  | .caload => false
  | .caseed => false
  | .advance => !s.caValid
  | .rdcell _ _ => !s.caValid
  | .framePagesel _ => false
  | .frameData => !s.fbValid
  | .frameInit => false

/-- A run has ended (R182): nothing is in progress and the host offers nothing. R182 speaks of offered commands only; that a
reset pin still to be asserted keeps the run from having ended too is the model's choice (DESIGN CHOICE, unsafe; log 33). -/
def runEnded (s : State) : Bool := atBoundary s && s.host.isEmpty

/-- What an ended run shows (R182). -/
structure Observation where
  /-- `FB[1 .. N-1]`. -/
  fb : List Byte
  /-- `CUR`. -/
  cur : Grid
  /-- `RD_DATA`, where an RDCELL was issued. -/
  rdData : Option Bool
  /-- `BUS`. -/
  bus : List Event
deriving DecidableEq, Repr

/-- The observation of a state (R182); `RD_DATA` is part of it only where an RDCELL was issued (log 28), and `FB[0]`, `NXT`,
`SEQ` and the working registers are no part of it (R34). -/
def observe (s : State) : Observation :=
  { fb := fbBytes s 1 (s.cfg.n - 1), cur := s.cur, rdData := if s.rdIssued then some s.rdData else none, bus := s.bus }

end Sys2Proof.Safety
end

