-- ==== Sys2Proof/Certificates/Slice0/Obligations.lean ====
section
/-! DEFINITION. The statements about GOLFB, from the numbered rules of spec/. Each says in its docstring which rule it
formalises, and where it rests on a choice of the model. A statement about the next state of `exec` gives it as an equation or
by its fields; a field set to itself (`fb := t.fb`) is one the equation leaves to the other clauses, and every field not named
is unchanged. -/

open Sys2Proof Sys2Proof.Machine Sys2Proof.Safety

/-! ## Reset and the step -/

/-- R36, R163, R162: the reset pin at an operation boundary, and power-on, leave the block idle, not busy, with both marks 0
and `BUS` empty, on the same build. What storage holds then is the model's free values (logs 1, 2, 3). -/
def Obligations.ResetLeavesIdleState : Prop :=
  (∀ (s : State) (rest : List HostAct), s.cfg.geometryLegal = true → s.busy = false → s.host = .resetPin :: rest →
    ∃ t, step s = .next t ∧ t.busy = false ∧ t.seq.op = .idle ∧ t.fbValid = false ∧ t.caValid = false ∧ t.bus = [] ∧
      t.cfg = s.cfg ∧ t.host = rest ∧
      (∀ a, fbByte t a = Config.fbPowerUp s.fresh a) ∧
      (∀ x y, x < s.cfg.gw → y < s.cfg.gh → cell t.cur x y = Config.curPowerUp s.fresh x y)) ∧
  State.reset.busy = false ∧ State.reset.seq.op = .idle ∧ State.reset.fbValid = false ∧ State.reset.caValid = false ∧
    State.reset.bus = [] ∧ State.reset.cfg.w = 128 ∧ State.reset.cfg.h = 64 ∧ State.reset.cfg.gw = 128 ∧
    State.reset.cfg.gh = 64 ∧ State.reset.cfg.devAddr = 0x3C#8

/-- The invariant holds right after reset. -/
def Obligations.InvariantAtReset : Prop := Inv State.reset

/-- R15, R70, R176: at an operation boundary an offered word that decodes to `i` makes the step `exec i`, on the state in which
the offer has left the ports and its side-band operands are sampled. The model's choices: the level `sampleTx` takes (log 11),
the host's list (log 12), and that every accepted command samples both side-band ports, also one that uses neither (log 14,
unsafe), where R69 and R176 sample `SEED_IN` with CASEED and `GRID_IN` with CALOAD. -/
def Obligations.StepRunsOfferedCommand : Prop :=
  ∀ (s : State) (o : Offer) (rest : List HostAct) (i : Instr),
    s.cfg.geometryLegal = true → s.busy = false → s.host = .offer o :: rest → decode s.cfg (.cmd o.cmd) = .ok i →
    step s = exec i { sampleTx s with host := rest, seedIn := o.seedIn, gridIn := o.gridIn }

/-- R25, R177: while REFRESH or INIT stands at a frame and the transport is ready, the step is `exec` of that frame's
instruction, and then the sequencer moves on. The block standing there at all is the model's finer grain (log 11). -/
def Obligations.StepSendsHeldFrame : Prop :=
  ∀ s : State, s.cfg.geometryLegal = true → s.busy = true → (s.seq.op = .refresh ∨ s.seq.op = .init) →
    (sampleTx s).txReady = true →
    step s = andThen
      (exec (match s.seq.ph with
        | .initFrame => .frameInit
        | .cmd => .framePagesel (BitVec.ofNat 8 s.seq.p)
        | .data => .frameData) (sampleTx s))
      fun t => .next (afterFrame t)

/-- R174, R177: while the transport is not ready the operation in progress stays where it is with `BUSY` 1, no frame goes out,
and what the host offers waits, neither dropped nor accepted. The model's choices: the level at which it waits (log 11), and
that `FB` is unchanged while a data frame waits too, the tag not yet borrowed, where D9 and U14 leave it open (log 31). -/
def Obligations.StepWaitsForTransport : Prop :=
  ∀ s : State, s.cfg.geometryLegal = true → s.busy = true → (s.seq.op = .refresh ∨ s.seq.op = .init) →
    (sampleTx s).txReady = false →
    ∃ t, step s = .next t ∧ t.busy = true ∧ t.seq = s.seq ∧ t.bus = s.bus ∧ t.host = s.host ∧ t.fb = s.fb ∧ t.cur = s.cur

/-- R160, R164: at an operation boundary with nothing offered the block holds all its state; only the transport's next level
is sampled, from the model's own plan of levels (log 11), on which the rules are silent. -/
def Obligations.StepIdleHoldsState : Prop :=
  ∀ s : State, s.cfg.geometryLegal = true → s.busy = false → s.host = [] →
    step s = .next { s with txReady := (s.txPlan.head?).getD s.txReady, txPlan := s.txPlan.tail }

/-- R7 (U15): a build outside the parameter bounds is refused. -/
def Obligations.UnadmittedBuildRefused : Prop :=
  ∀ s : State,
    ¬ (1 ≤ s.cfg.w ∧ s.cfg.w % 8 = 0 ∧ s.cfg.w ≤ 256 ∧ 1 ≤ s.cfg.h ∧ s.cfg.h % 8 = 0 ∧ s.cfg.h ≤ 256 ∧
        s.cfg.np ≤ 80 ∧ 1 ≤ s.cfg.gw ∧ s.cfg.gw ≤ 256 ∧ 1 ≤ s.cfg.gh ∧ s.cfg.gh ≤ 256) →
    step s = .refused .illegalConfiguration

/-- R71, R150: a word with a reserved opcode is refused, whatever its other bits and whatever the state it would read. -/
def Obligations.ReservedOpcodeRefused : Prop :=
  ∀ (s : State) (o : Offer) (rest : List HostAct),
    s.cfg.geometryLegal = true → s.busy = false → s.host = .offer o :: rest →
    o.cmd.extractLsb' 28 4 ∈ [0x0#4, 0x5#4, 0x6#4, 0x7#4, 0xC#4, 0xD#4, 0xE#4, 0xF#4] →
    step s = .refused (.reservedOpcode (o.cmd.extractLsb' 28 4))

/-- R72: under one of the eight opcodes a word is refused when a reserved bit is set: `CMD[27:17]` always, `CMD[16]` but for
SETPIX, `CMD[15:0]` but for SETPIX and RDCELL. -/
def Obligations.ReservedBitsRefused : Prop :=
  ∀ (s : State) (o : Offer) (rest : List HostAct),
    s.cfg.geometryLegal = true → s.busy = false → s.host = .offer o :: rest →
    o.cmd.extractLsb' 28 4 ∈ [0x1#4, 0x2#4, 0x3#4, 0x4#4, 0x8#4, 0x9#4, 0xA#4, 0xB#4] →
    (o.cmd.extractLsb' 17 11 ≠ 0#11 ∨
      (o.cmd.extractLsb' 28 4 ≠ 0x2#4 ∧ o.cmd.getLsbD 16 = true) ∨
      (o.cmd.extractLsb' 28 4 ≠ 0x2#4 ∧ o.cmd.extractLsb' 28 4 ≠ 0xB#4 ∧ o.cmd.extractLsb' 0 16 ≠ 0#16)) →
    step s = .refused (.reservedBits o.cmd)

/-! ## Encodings -/

/-- A few words of the vector table V-EN, a page select and a data frame decode as they should, on the default build (a sanity
check). -/
def Obligations.SampleWordsDecode : Prop :=
  decode Config.default (.cmd 0x10000000#32) = .ok .clear ∧
  decode Config.default (.cmd 0x20011405#32) = .ok (.setpix 5#8 20#8 true) ∧
  decode Config.default (.cmd 0x20003F7F#32) = .ok (.setpix 127#8 63#8 false) ∧
  decode Config.default (.cmd 0x30000000#32) = .ok .refresh ∧
  decode Config.default (.cmd 0xB0000102#32) = .ok (.rdcell 2#8 1#8) ∧
  decode Config.default (.cmd 0x20020000#32) = .error (.reservedBits 0x20020000#32) ∧
  decode Config.default (.cmd 0x00000000#32) = .error (.reservedOpcode 0#4) ∧
  decode Config.default (.frame [0x00#8, 0xB3#8, 0x02#8, 0x10#8]) = .ok (.framePagesel 3#8) ∧
  decode Config.default (.frame (0x40#8 :: List.replicate 128 0x00#8)) = .ok .frameData

/-- R61 to R68: on an admitted build the decoder gives back every well-formed instruction from its code, with every operand at
every value; a data frame is given with the `W` column bytes it carries. -/
def Obligations.DecodeEncodeRoundTrip : Prop :=
  ∀ (c : Config) (cols : List Byte) (i : Instr),
    c.legal = true → i.wellFormed c = true → cols.length = c.w → decode c (encode c cols i) = .ok i

/-- R66 to R72: a command word has one reading, and that instruction's code is the word itself, so no two words decode to one
instruction and no bit of a word is dropped. -/
def Obligations.CommandWordIsItsEncoding : Prop :=
  ∀ (c : Config) (cols : List Byte) (w : Word) (i : Instr),
    decode c (.cmd w) = .ok i → encode c cols i = .cmd w

/-- R64: byte 1 of the page-select frame of page `p` is `(PAGE_BASE + p) mod 256`; with `NP <= 80` the `mod` never acts, and
for `p < 16` it is `0xB0 | p`. -/
def Obligations.PageSelectByteValue : Prop :=
  ∀ p : Byte, ∃ b, (cmdFrame p)[1]? = some b ∧ b.toNat = (0xB0 + p.toNat) % 256 ∧
    (p.toNat < 80 → b.toNat = 0xB0 + p.toNat) ∧ (p.toNat < 16 → b = 0xB0#8 ||| p)

/-- R70: one `BusSend` is the run of bytes from a `tx_first` to the next `tx_last`, so the beats on the TX port give back the
events; a beat carries the address and one byte of its event, `tx_first` exactly at position 0 and `tx_last` exactly at the
last position. -/
def Obligations.TxBeatsCarryFrames : Prop :=
  (∀ bus : List Event, (∀ e ∈ bus, e.bytes ≠ []) → eventsOfBeats [] (txBeats bus) = bus) ∧
  ∀ e : Event, (eventBeats e).length = e.bytes.length ∧
    ∀ (k : Nat) (b : Beat), (eventBeats e)[k]? = some b →
      b.addr = e.addr ∧ e.bytes[k]? = some b.data ∧ (b.first = true ↔ k = 0) ∧ (b.last = true ↔ k + 1 = e.bytes.length)

/-! ## Pixel surface -/

/-- R86: on an admitted geometry ADEC gives an index in `1 .. N-1` and a bit in `0 .. 7`; the smallest is that of pixel
`(0, 0)`, the largest that of `(W-1, H-1)`. -/
def Obligations.AdecRange : Prop :=
  ∀ c : Config, c.geometryLegal = true →
    (∀ x y idx bit, adec c x y = some (idx, bit) → 1 ≤ idx ∧ idx ≤ c.n - 1 ∧ bit.toNat ≤ 7) ∧
    adec c 0#8 0#8 = some (1, 0#3) ∧
    adec c (BitVec.ofNat 8 (c.w - 1)) (BitVec.ofNat 8 (c.h - 1)) = some (c.n - 1, 7#3) ∧
    c.n - 1 = (c.np - 1) * c.w + c.w

/-- R87: on an admitted geometry ADEC is injective on in-range pixels, since index and bit give the pixel back, and onto
`[1, N-1] x [0, 7]`. -/
def Obligations.AdecBijective : Prop :=
  ∀ c : Config, c.geometryLegal = true →
    (∀ x y x' y' r, adec c x y = some r → adec c x' y' = some r → x = x' ∧ y = y') ∧
    (∀ x y idx bit, adec c x y = some (idx, bit) →
      (idx - 1) / c.w = y.toNat / 8 ∧ (idx - 1) % c.w = x.toNat ∧ y.toNat = 8 * (y.toNat / 8) + bit.toNat) ∧
    (∀ (idx : Nat) (bit : BitVec 3), 1 ≤ idx → idx ≤ c.n - 1 → ∃ x y, adec c x y = some (idx, bit))

/-- R89: CLEAR completes; every byte of `FB`, the reserved one too, is `0x00`, `FB_VALID` is 1; no bus event, and `CUR`,
`NXT`, `RD_DATA` and the rest are as before. -/
def Obligations.ClearBlanksFramebuffer : Prop :=
  ∀ s : State, ∃ t, exec .clear s = .next t ∧ (∀ a, fbByte t a = 0x00#8) ∧
    t = { s with fb := t.fb, fbValid := true, busy := false, seq := { s.seq with op := .idle } }

/-- R90, R91: SETPIX in range completes; bit `BIT` of `FB[IDX]` becomes `v`, its other bits and every other byte stay; the
working registers hold the operands and what ADEC gave; nothing else moves. On a framebuffer nothing has written since reset
the old byte is the free power-up value (R166; log 1). That the working registers keep these values after the operation is the
model's (log 20), where R22 says they hold none that survives it. -/
def Obligations.SetpixWritesOneBit : Prop :=
  ∀ (s : State) (x y : Coord) (v : Bool) (idx : Nat) (bit : BitVec 3),
    s.cfg.geometryLegal = true → adec s.cfg x y = some (idx, bit) →
    ∃ t, exec (.setpix x y v) s = .next t ∧
      (∀ k, k < 8 → (fbByte t idx).getLsbD k = if k = bit.toNat then v else (fbByte s idx).getLsbD k) ∧
      (∀ a, a ≠ idx → fbByte t a = fbByte s a) ∧
      t = { s with
        fb := t.fb
        busy := false
        seq := { s.seq with op := .idle }
        regs := { s.regs with x := x, y := y, v := v, inr := true, idx := idx, bit := bit } }

/-- R73, R90, R144: SETPIX out of range completes and changes nothing of `FB`, nor any flag; `INR` is 0, and `IDX`, `BIT` are
unspecified (U8; log 6), for which the model draws one free value. The model's choices: that it completes on `FB_VALID = 0` too,
where R90 refuses first and its corner case 5 admits the no-op (log 1), and that `X`, `Y`, `V`, `INR` keep their values after
the operation (log 20). -/
def Obligations.SetpixOutOfRangeIgnored : Prop :=
  ∀ (s : State) (x y : Coord) (v : Bool), (s.cfg.w ≤ x.toNat ∨ s.cfg.h ≤ y.toNat) →
    ∃ t, exec (.setpix x y v) s = .next t ∧
      t = { s with
        busy := false
        seq := { s.seq with op := .idle }
        regs := { s.regs with x := x, y := y, v := v, inr := false, idx := t.regs.idx, bit := t.regs.bit }
        fresh := s.fresh + 1 }

/-- R92 items 1 to 3, R51, C1: on in-range pixels SETPIX twice is SETPIX once; on then off leaves the bit 0 and everything
else, so the old byte exactly where the bit was 0; SETPIX on two different pixels commutes. R92 gives the laws for
`FB_VALID = 1`; that they hold on unwritten `FB` too, where SETPIX runs on free power-up bytes, is the model's (R166; log 1). -/
def Obligations.SetpixLaws : Prop :=
  ∀ (s : State) (x y : Coord) (idx : Nat) (bit : BitVec 3),
    s.cfg.geometryLegal = true → adec s.cfg x y = some (idx, bit) →
    (∀ v, ∃ t1 t2, exec (.setpix x y v) s = .next t1 ∧ exec (.setpix x y v) t1 = .next t2 ∧
      ∀ a, fbByte t2 a = fbByte t1 a) ∧
    (∃ t1 t2, exec (.setpix x y true) s = .next t1 ∧ exec (.setpix x y false) t1 = .next t2 ∧
      (∀ a, a ≠ idx → fbByte t2 a = fbByte s a) ∧
      (∀ k, k < 8 → (fbByte t2 idx).getLsbD k = if k = bit.toNat then false else (fbByte s idx).getLsbD k) ∧
      (fbByte t2 idx = fbByte s idx ↔ (fbByte s idx).getLsbD bit.toNat = false)) ∧
    (∀ (x' y' : Coord) (v v' : Bool) (idx' : Nat) (bit' : BitVec 3), adec s.cfg x' y' = some (idx', bit') →
      (x ≠ x' ∨ y ≠ y') →
      ∃ t1 t2 u1 u2, exec (.setpix x y v) s = .next t1 ∧ exec (.setpix x' y' v') t1 = .next t2 ∧
        exec (.setpix x' y' v') s = .next u1 ∧ exec (.setpix x y v) u1 = .next u2 ∧ ∀ a, fbByte t2 a = fbByte u2 a)

/-- R92 item 4: the bit ADEC names for a pixel stays as it is under every operation but SETPIX on the same pixel, CLEAR and
INIT. That a data frame the transport holds up has not yet borrowed its tag slot is the model's (D9, U14; log 31). -/
def Obligations.PixelPersists : Prop :=
  ∀ (s t : State) (x y : Coord) (idx : Nat) (bit : BitVec 3) (i : Instr),
    s.cfg.geometryLegal = true → adec s.cfg x y = some (idx, bit) → i ≠ .clear → i ≠ .init →
    (∀ v, i ≠ .setpix x y v) → exec i s = .next t →
    (fbByte t idx).getLsbD bit.toNat = (fbByte s idx).getLsbD bit.toNat

/-- R93: no operation but CLEAR, SETPIX and INIT changes a byte of `FB`; the tag borrow of REFRESH leaves none changed. That a
data frame the transport holds up has not yet borrowed its tag slot is the model's (D9, U14; log 31). -/
def Obligations.OnlyDisplayWritersWriteFb : Prop :=
  ∀ (i : Instr) (s t : State), i ≠ .clear → i ≠ .init → (∀ x y v, i ≠ .setpix x y v) → exec i s = .next t →
    ∀ a, fbByte t a = fbByte s a

/-! ## Page serializer -/

/-- R97: the page-select frame of page `p` is `[0x00, 0xB0 + p, 0x02, 0x10]`, and FRAME_PAGESEL sends it, while the transport
is ready, as one event; nothing else moves. R97 speaks of `p < NP`; that a page at or above `NP`, which the serializer never
reaches, is sent by the same formula is the model's (log 15). -/
def Obligations.PageSelectFrameSent : Prop :=
  ∀ (s : State) (p : Byte), s.txReady = true →
    exec (.framePagesel p) s =
      .next { s with bus := s.bus ++ [{ addr := s.cfg.devAddr, bytes := [0x00#8, 0xB0#8 + p, 0x02#8, 0x10#8] }] }

/-- R99, R100, R102: FRAME_DATA sends `DATA_TAG` and the `W` column bytes of page `SEQ.P`, while the transport is ready; the
tag slot's byte is left in `SAVED` and every byte of `FB` is as before, and so is its list where it is canonical. That it
completes on `FB_VALID = 0` too, where R98 refuses the REFRESH it is part of, is the model's (R166; log 1), and so is taking
R100's borrow, which writes `SAVED`, and not the multiplexer D9 admits beside it (log 31). -/
def Obligations.DataFrameSent : Prop :=
  ∀ s : State, s.txReady = true → s.seq.p < s.cfg.np →
    ∃ t, exec .frameData s = .next t ∧
      t.bus = s.bus ++ [⟨s.cfg.devAddr,
        0x40#8 :: (List.range s.cfg.w).map fun k => fbByte s (s.seq.p * s.cfg.w + 1 + k)⟩] ∧
      (∀ a, fbByte t a = fbByte s a) ∧
      (Memory.wf s.fbBase s.cfg.n s.fb = true → t.fb = s.fb) ∧
      t = { s with fb := t.fb, bus := t.bus, regs := { s.regs with saved := fbByte s (s.seq.p * s.cfg.w) } }

/-- R63: FRAME_INIT sends `INIT_FRAME` as one event while the transport is ready; on an admitted build its first byte is
`0x00` and `0x7F` occurs in it. -/
def Obligations.InitFrameSent : Prop :=
  ∀ s : State, s.txReady = true → s.cfg.legal = true →
    exec .frameInit s = .next { s with bus := s.bus ++ [{ addr := s.cfg.devAddr, bytes := s.cfg.initFrame }] } ∧
      s.cfg.initFrame.head? = some 0x00#8 ∧ 0x7F#8 ∈ s.cfg.initFrame

/-- R70, R177: while the transport is not ready no frame goes out: a frame waits where it stands, and REFRESH and INIT stand
at their first frame with `BUSY` 1. The model's choices: that the block stands there between two steps (log 11), that REFRESH
does so on `FB_VALID = 0` too, where R98 refuses (R166; log 1), that a waiting data frame leaves `FB` and `SAVED` as they are
(D9, U14; log 31), that `SEQ.PH` holds INIT's position INITFRAME (log 30), and that
`SEQ.P` is 0 there, where R24 and R25 give it no value (log 29). -/
def Obligations.FramesWaitForTransport : Prop :=
  ∀ s : State, s.txReady = false →
    (∀ p, exec (.framePagesel p) s = .next s) ∧ exec .frameData s = .next s ∧ exec .frameInit s = .next s ∧
    exec .refresh s = .next { s with busy := true, seq := { s.seq with op := .refresh, p := 0, ph := .cmd } } ∧
    exec .init s = .next { s with busy := true, seq := { s.seq with op := .init, p := 0, ph := .initFrame } }

/-- R98, R103, R106: REFRESH completes while the transport is ready; `BUS` grows by the page-select and the data frame of each
page, pages ascending, every data frame from the `FB` at its start; `FB` is as before, byte for byte; nothing else moves but
`SEQ` and `SAVED`. R98 refuses it on `FB_VALID = 0`; that it runs there, on free power-up bytes, is the model's (R166; log 1). -/
def Obligations.RefreshSendsEveryPage : Prop :=
  ∀ s : State, s.txReady = true →
    ∃ t, exec .refresh s = .next t ∧
      t.bus = s.bus ++ (List.range s.cfg.np).flatMap (fun p =>
        [⟨s.cfg.devAddr, [0x00#8, 0xB0#8 + BitVec.ofNat 8 p, 0x02#8, 0x10#8]⟩,
         ⟨s.cfg.devAddr, 0x40#8 :: (List.range s.cfg.w).map fun k => fbByte s (p * s.cfg.w + 1 + k)⟩]) ∧
      (∀ a, fbByte t a = fbByte s a) ∧
      (Memory.wf s.fbBase s.cfg.n s.fb = true → t.fb = s.fb) ∧
      t = { s with
        fb := t.fb
        bus := t.bus
        busy := false
        seq := { s.seq with op := .idle, p := t.seq.p, ph := t.seq.ph }
        regs := { s.regs with saved := t.regs.saved } }

/-- R101: the data frames of one REFRESH, their tags taken off, are `FB[1 .. N-1]` in order: every pixel byte is sent exactly
once and the reserved slot `FB[0]` never. R98 refuses REFRESH on `FB_VALID = 0`; that it answers there too is the model's
(R166; log 1). -/
def Obligations.EveryPixelByteSentOnce : Prop :=
  ∀ s : State, s.txReady = true →
    ∃ t new, exec .refresh s = .next t ∧ t.bus = s.bus ++ new ∧
      ((new.filter fun e => e.bytes.head? == some 0x40#8).flatMap fun e => e.bytes.tail) = fbBytes s 1 (s.cfg.n - 1)

/-- R101 (a): what the reserved slot `FB[0]` holds shows on no frame: two states that differ in no other byte of `FB`, and have
the build, `BUS` and the transport's level in common, have the same `BUS` after REFRESH. -/
def Obligations.ReservedSlotNeverShown : Prop :=
  ∀ s s' t t' : State, s'.cfg = s.cfg → s'.bus = s.bus → s'.txReady = s.txReady →
    (∀ a, 1 ≤ a → fbByte s' a = fbByte s a) → exec .refresh s = .next t → exec .refresh s' = .next t' → t'.bus = t.bus

/-- R65, R62, R39: pixel `(x, y)` in range travels in the data frame of page `floor(y/8)`, the `2*floor(y/8)+2`-nd event of
the REFRESH, at frame position `x + 1`, in bit `y mod 8`. R98 refuses REFRESH on `FB_VALID = 0`; that it answers there too is
the model's (R166; log 1). -/
def Obligations.PixelPositionOnWire : Prop :=
  ∀ (s : State) (x y : Coord) (idx : Nat) (bit : BitVec 3),
    s.cfg.geometryLegal = true → s.txReady = true → adec s.cfg x y = some (idx, bit) →
    ∃ t new e b, exec .refresh s = .next t ∧ t.bus = s.bus ++ new ∧ new[2 * (y.toNat / 8) + 1]? = some e ∧
      e.bytes[x.toNat + 1]? = some b ∧ b.getLsbD (y.toNat % 8) = (fbByte s idx).getLsbD bit.toNat

/-- R104, R105: INIT completes while the transport is ready; `BUS` grows by `INIT_FRAME` and the frames of a REFRESH of an
all-zero buffer; every byte of `FB` is `0x00`, `FB_VALID` is 1; nothing else moves but `SEQ` and `SAVED`. -/
def Obligations.InitConfiguresAndBlanks : Prop :=
  ∀ s : State, s.txReady = true →
    ∃ t, exec .init s = .next t ∧
      t.bus = s.bus ++ ⟨s.cfg.devAddr, s.cfg.initFrame⟩ :: (List.range s.cfg.np).flatMap (fun p =>
        [⟨s.cfg.devAddr, [0x00#8, 0xB0#8 + BitVec.ofNat 8 p, 0x02#8, 0x10#8]⟩,
         ⟨s.cfg.devAddr, 0x40#8 :: List.replicate s.cfg.w 0x00#8⟩]) ∧
      (∀ a, fbByte t a = 0x00#8) ∧
      t = { s with
        fb := t.fb
        fbValid := true
        bus := t.bus
        busy := false
        seq := { s.seq with op := .idle, p := t.seq.p, ph := t.seq.ph }
        regs := { s.regs with saved := t.regs.saved } }

/-- R25, R98, R104, R177: REFRESH or INIT held up at its first frame and then taken frame by frame, `2*NP` and `1 + 2*NP`
steps, ends in exactly the state the operation ends in when the transport is ready all along: the sequencer's positions of R25
refine the atomic operation of R15. The model's choices: the finer grain (log 11), that REFRESH runs on `FB_VALID = 0` too,
where R98 refuses (R166; log 1), that INIT's CLEAR is passed inside the step of its first frame, so that `1 + 2*NP` steps are
enough (log 25), and `SEQ.PH` INITFRAME and `SEQ.P` 0 while INIT stands at that frame (logs 30, 29). -/
def Obligations.HeldOperationResumes : Prop :=
  ∀ s : State, s.cfg.geometryLegal = true → s.txReady = true → s.txPlan = [] →
    steps (2 * s.cfg.np)
        { s with busy := true, seq := { s.seq with op := .refresh, p := 0, ph := .cmd } } = exec .refresh s ∧
    steps (1 + 2 * s.cfg.np)
        { s with busy := true, seq := { s.seq with op := .init, p := 0, ph := .initFrame } } = exec .init s

/-! ## Automaton engine -/

/-- R113, R114: the full count of a cell is the number of alive positions in the 3 x 3 square around it, the cell itself left
out, and at most 8. -/
def Obligations.CountIsNeighbourSum : Prop :=
  ∀ (c : Config) (g : Grid) (x y : Nat),
    count c g x y + (alive c g x y).toNat =
        ∑ i ∈ Finset.Icc ((x : Int) - 1) (x + 1), ∑ j ∈ Finset.Icc ((y : Int) - 1) (y + 1), (alive c g i j).toNat ∧
      count c g x y ≤ 8

/-- R115, R116: the saturated count is 3 or 2 exactly where the full count is, so it decides every cell as the full count
does, and no threshold below 4 would. -/
def Obligations.SaturationIsHarmless : Prop :=
  (∀ (c : Config) (g : Grid) (x y : Nat) (a : Bool),
    nextCell a (satCount c g x y) = nextCell a (count c g x y) ∧
      (satCount c g x y = 3 ↔ count c g x y = 3) ∧ (satCount c g x y = 2 ↔ count c g x y = 2)) ∧
  ∀ k, k < 4 → ∃ (c : Config) (g : Grid) (x y : Nat) (a : Bool),
    nextCell a (min (count c g x y) k) ≠ nextCell a (count c g x y)

/-- R117, R119: `NextGen(G)` is a `GH x GW` matrix whose every cell is the rule's, and it commutes with transposing the grid and
with mirroring it in `x` or in `y`. -/
def Obligations.NextGenSymmetries : Prop :=
  ∀ (c : Config) (g : Grid),
    gridShape c.gw c.gh (nextGen c g) = true ∧
    (∀ x y, x < c.gw → y < c.gh →
      (cell (nextGen c g) x y = true ↔
        min (count c g x y) 4 = 3 ∨ (cell g x y = true ∧ min (count c g x y) 4 = 2))) ∧
    nextGen { c with gw := c.gh, gh := c.gw } (gridOf c.gh c.gw fun x y => cell g y x) =
      gridOf c.gh c.gw (fun x y => cell (nextGen c g) y x) ∧
    nextGen c (gridOf c.gw c.gh fun x y => cell g (c.gw - 1 - x) y) =
      gridOf c.gw c.gh (fun x y => cell (nextGen c g) (c.gw - 1 - x) y) ∧
    nextGen c (gridOf c.gw c.gh fun x y => cell g x (c.gh - 1 - y)) =
      gridOf c.gw c.gh (fun x y => cell (nextGen c g) x (c.gh - 1 - y))

/-- R124 corner cases: an all-dead grid stays all dead; an all-alive grid of at least 3 x 3 keeps only its four corners. -/
def Obligations.UniformGrids : Prop :=
  ∀ c : Config,
    nextGen c (gridOf c.gw c.gh fun _ _ => false) = gridOf c.gw c.gh (fun _ _ => false) ∧
    (3 ≤ c.gw → 3 ≤ c.gh →
      nextGen c (gridOf c.gw c.gh fun _ _ => true) =
        gridOf c.gw c.gh fun x y => decide ((x = 0 ∨ x = c.gw - 1) ∧ (y = 0 ∨ y = c.gh - 1)))

/-- R120, R69: CALOAD completes; cell `(x, y)` of `CUR` is bit `y*GW + x` of `GRID_IN`, `CA_VALID` is 1; `NXT`, `CX`, `CY`
are unspecified (logs 5, 7), for which the model draws one free value; nothing else moves. -/
def Obligations.CaloadCopiesGrid : Prop :=
  ∀ s : State, ∃ t, exec .caload s = .next t ∧ gridShape s.cfg.gw s.cfg.gh t.cur = true ∧
    (∀ x y, x < s.cfg.gw → y < s.cfg.gh → cell t.cur x y = s.gridIn.testBit (y * s.cfg.gw + x)) ∧
    t = { s with
      cur := t.cur
      nxt := t.nxt
      caValid := true
      busy := false
      seq := { s.seq with op := .idle, cx := t.seq.cx, cy := t.seq.cy }
      fresh := s.fresh + 1 }

/-- R122, R123: CASEED completes; `CUR` is `PRNG_FILL(SEED_IN, GW, GH)`, `CA_VALID` is 1; `NXT`, `CX`, `CY` are unspecified
(logs 5, 7), for which the model draws one free value; nothing else moves. -/
def Obligations.CaseedFillsGrid : Prop :=
  ∀ s : State, ∃ t, exec .caseed s = .next t ∧ gridShape s.cfg.gw s.cfg.gh t.cur = true ∧
    (∀ x y, x < s.cfg.gw → y < s.cfg.gh → cell t.cur x y = Config.prngFill s.seedIn s.cfg.gw s.cfg.gh x y) ∧
    t = { s with
      cur := t.cur
      nxt := t.nxt
      caValid := true
      busy := false
      seq := { s.seq with op := .idle, cx := t.seq.cx, cy := t.seq.cy }
      fresh := s.fresh + 1 }

/-- R124, R125, R117, R115: ADVANCE completes; every cell is decided by the rule from the generation at its start, all at
once; `NXT`, `CX`, `CY` and, within `0 .. 4`, `NCNT` are unspecified (logs 5, 7), for which the model draws one free value;
nothing else moves. R124 refuses it on `CA_VALID = 0`; that it runs there, on free power-up cells, is the model's (R166;
log 2). -/
def Obligations.AdvanceStepsGeneration : Prop :=
  ∀ s : State, ∃ t, exec .advance s = .next t ∧ gridShape s.cfg.gw s.cfg.gh t.cur = true ∧
    (∀ x y, x < s.cfg.gw → y < s.cfg.gh →
      (cell t.cur x y = true ↔
        min (count s.cfg s.cur x y) 4 = 3 ∨ (cell s.cur x y = true ∧ min (count s.cfg s.cur x y) 4 = 2))) ∧
    t.regs.ncnt.toNat ≤ 4 ∧
    t = { s with
      cur := t.cur
      nxt := t.nxt
      busy := false
      seq := { s.seq with op := .idle, cx := t.seq.cx, cy := t.seq.cy }
      regs := { s.regs with ncnt := t.regs.ncnt }
      fresh := s.fresh + 1 }

/-- R128, R113: RDCELL completes; `RD_DATA` is the cell of `CUR` inside the grid and 0 outside (D16; log 17); `CUR` is
untouched, and nothing else moves but the latched operands and the mark that an RDCELL has run (R182; log 28). The model's
choices: that it runs on `CA_VALID = 0`, where R128 refuses (R166; log 2), and that `X`, `Y` keep the operands (log 20). -/
def Obligations.RdcellReadsCell : Prop :=
  ∀ (s : State) (x y : Coord),
    exec (.rdcell x y) s = .next { s with
      rdData := if x.toNat < s.cfg.gw ∧ y.toNat < s.cfg.gh then cell s.cur x.toNat y.toNat else false
      rdIssued := true
      busy := false
      seq := { s.seq with op := .idle }
      regs := { s.regs with x := x, y := y } }

/-- R129: two blocks of one build given CASEED with the same seed, and then the same number of ADVANCE, have equal `CUR`,
whatever else their states hold. -/
def Obligations.SeedDeterminism : Prop :=
  ∀ (s s' : State) (k : Nat), s'.cfg = s.cfg → s'.seedIn = s.seedIn →
    ∃ t t', andThen (exec .caseed s) (advanceMany k) = .next t ∧
      andThen (exec .caseed s') (advanceMany k) = .next t' ∧ t'.cur = t.cur

/-- R76, R121, R69: a grid literal of the engine's shape becomes the CALOAD offer whose port value is that grid; one of another
shape is refused. -/
def Obligations.GridLiteralPacked : Prop :=
  ∀ (c : Config) (rows : Grid) (seed : Seed),
    (gridShape c.gw c.gh rows = true →
      ∃ o, caloadLiteral c rows seed = .next o ∧ o.cmd = 0x80000000#32 ∧ gridOfPort c.gw c.gh o.gridIn = rows ∧
        o.gridIn < 2 ^ (c.gw * c.gh)) ∧
    (gridShape c.gw c.gh rows = false → caloadLiteral c rows seed = .refused .gridShape)

/-! ## The whole machine -/

/-- Every step keeps the invariant: the framebuffer's list canonical and inside the buffer, the matrices in shape, `BUSY` 1
exactly while `SEQ.op` is not `IDLE`, the page in range, every frame to `DEV_ADDR` and not empty (R20, R21, R24, R26, R44,
R48, R108). -/
def Obligations.StepKeepsInvariant : Prop :=
  ∀ s t : State, Inv s → step s = .next t → Inv t

/-- R142, R48: from a state that meets the invariant no step faults: no index outside the framebuffer is produced, and there
is no exception. -/
def Obligations.NoStepFaults : Prop :=
  ∀ s : State, Inv s → ∀ r : Fault, step s ≠ .fault r

/-- R31, R127: no step changes the build. -/
def Obligations.BuildIsConstant : Prop :=
  ∀ s t : State, step s = .next t → t.cfg = s.cfg

/-- R30, R108: an operation only appends to `BUS`, and every frame it sends goes to `DEV_ADDR`. -/
def Obligations.BusOnlyGrows : Prop :=
  ∀ (i : Instr) (s t : State), exec i s = .next t →
    ∃ new, t.bus = s.bus ++ new ∧ ∀ e ∈ new, e.addr = s.cfg.devAddr

/-- R154, R112, R20: the display operations and frames write neither `CUR` nor `NXT`, `RD_DATA` or `CA_VALID`, and the
automaton operations write neither `FB` nor `FB_VALID`, `BUS` or `SAVED`. -/
def Obligations.UnitsAreIsolated : Prop :=
  (∀ (i : Instr) (s t : State), i ∈ [.clear, .refresh, .init, .frameData, .frameInit] ∨
      (∃ x y v, i = .setpix x y v) ∨ (∃ p, i = .framePagesel p) → exec i s = .next t →
    t.cur = s.cur ∧ t.nxt = s.nxt ∧ t.rdData = s.rdData ∧ t.caValid = s.caValid) ∧
  (∀ (i : Instr) (s t : State), i ∈ [.caload, .caseed, .advance] ∨ (∃ x y, i = .rdcell x y) → exec i s = .next t →
    t.fb = s.fb ∧ (∀ a, fbByte t a = fbByte s a) ∧ t.fbValid = s.fbValid ∧ t.bus = s.bus ∧ t.regs.saved = s.regs.saved)

/-- R27: CLEAR and INIT set `FB_VALID`, CALOAD and CASEED set `CA_VALID`; no other operation sets either, and none clears
either. INIT is asked of a ready transport. -/
def Obligations.ValidityMarks : Prop :=
  ∀ (i : Instr) (s t : State), s.txReady = true → exec i s = .next t →
    (t.fbValid = true ↔ s.fbValid = true ∨ i = .clear ∨ i = .init) ∧
    (t.caValid = true ↔ s.caValid = true ∨ i = .caload ∨ i = .caseed)

/-- R26, R32, R70: a command that answers has finished when it answers, the transport being ready, so `SEQ.op` is `IDLE`,
`BUSY` is 0, `cmd_ready` is 1 and `STATUS` reads 0; at any width bit 0 of `STATUS` is `BUSY` and the others read 0. -/
def Obligations.BusyFallsWhenFinished : Prop :=
  (∀ (c : Config) (w : Word) (i : Instr) (s t : State), decode c (.cmd w) = .ok i → s.txReady = true →
    exec i s = .next t → t.seq.op = .idle ∧ t.busy = false ∧ cmdReady t = true ∧ ∀ n, statusWord n t = 0) ∧
  (∀ (s : State) (n k : Nat), k < n → (statusWord n s).getLsbD k = (decide (k = 0) && s.busy))

/-! ## Composition -/

/-- R134, R135: on a grid of the surface's size RENDER, issued by the host to an idle block, completes and copies the grid into
the framebuffer: bit `r` of `FB[1 + p*W + x]` is cell `(x, 8p + r)`, `FB[0]`, `CUR` and `BUS` are as before. That it completes
on unwritten storage, where RDCELL and SETPIX are refused (R128, R90), is the model's (R166; logs 1, 2). -/
def Obligations.RenderCopiesGrid : Prop :=
  ∀ s : State, s.cfg.geometryLegal = true → s.cfg.gw = s.cfg.w → s.cfg.gh = s.cfg.h → s.busy = false →
    ∃ t, render s = .next t ∧
      (∀ p x r, p < s.cfg.np → x < s.cfg.w → r < 8 →
        (fbByte t (1 + p * s.cfg.w + x)).getLsbD r = cell s.cur x (8 * p + r)) ∧
      fbByte t 0 = fbByte s 0 ∧ t.cur = s.cur ∧ t.bus = s.bus ∧ t.busy = false ∧ t.host = s.host

/-- R136: GETGRID, issued by the host to an idle block, completes with the `GH x GW` matrix equal to `CUR`, and `CUR` is as
before. That it completes on `CA_VALID = 0`, where R128 refuses RDCELL, is the model's (R166; log 2). -/
def Obligations.GetGridReadsGrid : Prop :=
  ∀ s : State, s.cfg.geometryLegal = true → gridShape s.cfg.gw s.cfg.gh s.cur = true → s.busy = false →
    ∃ t, getGrid s = .next (s.cur, t) ∧ t.cur = s.cur ∧ t.busy = false ∧ t.host = s.host

/-- R137, R105: BOOT, offered by the host to an idle block, runs in two steps and leaves both marks 1, `CUR` filled from the
seed, `FB` all zero, and on `BUS` the events of one INIT and no other: `INIT_FRAME`, then for each page in order its page select
and its data frame of zeros. The two steps rest on the transport being ready throughout (log 11). -/
def Obligations.BootPreparesBlock : Prop :=
  ∀ (s : State) (seed : Seed) (g : Nat) (rest : List HostAct),
    s.cfg.geometryLegal = true → s.busy = false → s.txReady = true → s.txPlan = [] →
    s.host = bootActs seed g ++ rest →
    ∃ t, steps 2 s = .next t ∧ t.caValid = true ∧ t.fbValid = true ∧ t.busy = false ∧ t.host = rest ∧
      (∀ a, fbByte t a = 0x00#8) ∧
      (∀ x y, x < s.cfg.gw → y < s.cfg.gh → cell t.cur x y = Config.prngFill seed s.cfg.gw s.cfg.gh x y) ∧
      t.bus = s.bus ++ ⟨s.cfg.devAddr, s.cfg.initFrame⟩ :: (List.range s.cfg.np).flatMap (fun p =>
        [⟨s.cfg.devAddr, [0x00#8, 0xB0#8 + BitVec.ofNat 8 p, 0x02#8, 0x10#8]⟩,
         ⟨s.cfg.devAddr, 0x40#8 :: List.replicate s.cfg.w 0x00#8⟩])

/-- R139, R140, R174, R177: one iteration of FRAMELOOP on a grid of the surface's size, begun by the host on an idle block,
completes whatever levels the transport takes first, if it is ready in the end: the data frame of page `p` carries the
generation at its start, bit `r` of column `x` being cell `(x, 8p + r)`, `FB` holds that picture, with `FB[0]` as before, and
`CUR` is then the next generation. R140 starts after BOOT; that the iteration completes on unwritten storage too is the model's
(R166; logs 1, 2), and so is the plan of levels (log 11). -/
def Obligations.FrameIterationShowsGeneration : Prop :=
  ∀ s : State, s.cfg.geometryLegal = true → s.cfg.gw = s.cfg.w → s.cfg.gh = s.cfg.h → s.busy = false →
    txEndsReady s = true →
    ∃ t new, frameIteration s = .next t ∧ t.busy = false ∧ t.cur = nextGen s.cfg s.cur ∧ t.bus = s.bus ++ new ∧
      new.length = 2 * s.cfg.np ∧ fbByte t 0 = fbByte s 0 ∧
      ∀ p x r, p < s.cfg.np → x < s.cfg.w → r < 8 →
        (fbByte t (1 + p * s.cfg.w + x)).getLsbD r = cell s.cur x (8 * p + r) ∧
        ∃ e b, new[2 * p + 1]? = some e ∧ e.bytes.head? = some 0x40#8 ∧ e.bytes[x + 1]? = some b ∧
          b.getLsbD r = cell s.cur x (8 * p + r)

/-- R140, R139, R174, R177: on a grid of the surface's size `k` iterations of FRAMELOOP, begun by the host on an idle block,
complete whatever levels the transport takes first, if it is ready in the end; iteration `j` appends the `2*NP` events of a
REFRESH, of which the data frame of page `p` is `[0x40, c(0), ..., c(W-1)]` with bit `r` of `c(x)` equal to cell `(x, 8p + r)` of
the `j`-th generation from `CUR` at the start; and `CUR` is then the `k`-th. R140 starts after BOOT, where both marks are 1; that
the iterations complete on unwritten storage too is the model's (R166; logs 1, 2), and so is the plan of levels (log 11). -/
def Obligations.FrameLoopShowsGenerations : Prop :=
  ∀ (k : Nat) (s : State), s.cfg.geometryLegal = true → s.cfg.gw = s.cfg.w → s.cfg.gh = s.cfg.h → s.busy = false →
    txEndsReady s = true →
    ∃ t new, frameLoop k s = .next t ∧ t.busy = false ∧ t.cur = (nextGen s.cfg)^[k] s.cur ∧ t.bus = s.bus ++ new ∧
      new.length = 2 * s.cfg.np * k ∧
      ∀ j p, j < k → p < s.cfg.np →
        new[2 * s.cfg.np * j + 2 * p]? =
          some ⟨s.cfg.devAddr, [0x00#8, 0xB0#8 + BitVec.ofNat 8 p, 0x02#8, 0x10#8]⟩ ∧
        ∃ cols, new[2 * s.cfg.np * j + 2 * p + 1]? = some ⟨s.cfg.devAddr, 0x40#8 :: cols⟩ ∧ cols.length = s.cfg.w ∧
          ∀ x r, x < s.cfg.w → r < 8 →
            ∃ b, cols[x]? = some b ∧ b.getLsbD r = cell ((nextGen s.cfg)^[j] s.cur) x (8 * p + r)

/-! ## The transport and the end of a run -/

/-- R177, R149: from every state of the invariant, if the transport is ready in the end, the host's wait ends with `BUSY` 0; the
automaton's grid and what the host still offers are as before. The model's choices: the plan of levels (log 11), the bound of
the wait (log 22), and that a held REFRESH goes on where `FB_VALID = 0`, where R98 refuses (R166; log 1). -/
def Obligations.WaitEndsWhenTransportTakesBytes : Prop :=
  ∀ s : State, Inv s → txEndsReady s = true →
    ∃ t, awaitIdle s = .next t ∧ t.busy = false ∧ t.cur = s.cur ∧ t.host = s.host

/-- R174, R175, R177: a transport that is never ready again leaves REFRESH and INIT with `BUSY` 1 for ever, since every step
answers the same state, and nothing the host issues is accepted by a block that hangs; an iteration of FRAMELOOP
that meets such a transport sends no frame and does not advance `CUR`. The model's choices: the level that stays 0 as the form of the hang (log 11), that issuing
to a block that hangs answers its hung state (log 22), that a data frame that hangs leaves `FB` and `SAVED` as they are (D9, U14;
log 31), and that the iteration runs on unwritten storage too, where RDCELL,
SETPIX and REFRESH are refused (R128, R90, R98; R166; logs 1, 2). -/
def Obligations.CompositionWaitsForTransport : Prop :=
  (∀ (s : State) (w : Word), s.cfg.geometryLegal = true → s.busy = true → (s.seq.op = .refresh ∨ s.seq.op = .init) →
    s.txReady = false → s.txPlan = [] → step s = .next s ∧ issue w s = .next s) ∧
  ∀ s : State, s.cfg.geometryLegal = true → s.cfg.gw = s.cfg.w → s.cfg.gh = s.cfg.h → s.busy = false →
    s.txReady = false → s.txPlan = [] →
    ∃ t, frameIteration s = .next t ∧ t.busy = true ∧ t.seq.op = .refresh ∧ t.cur = s.cur ∧ t.bus = s.bus

/-- R70: `tx_valid` is 0 while the block is not busy. While REFRESH or INIT stands at a frame a byte is offered, with
`tx_first` 1; while the transport is not ready the same byte stays offered, and when it is ready the step sends the frame of
which that byte is position 0. The model's choices: that the block stands only before whole frames (logs 11, 19), and that a
data frame goes out on `FB_VALID = 0` too, where R98 refuses (R166; log 1). -/
def Obligations.TxOffersHeldFrame : Prop :=
  ∀ s : State, s.cfg.geometryLegal = true →
    (s.busy = false → txOffered s = none ∧ txValid s = false) ∧
    (s.busy = true → (s.seq.op = .refresh ∨ s.seq.op = .init) → (s.seq.ph = .data → s.seq.p < s.cfg.np) →
      s.cfg.initFrame ≠ [] →
      ∃ b, txOffered s = some b ∧ txValid s = true ∧ b.first = true ∧ b.addr = s.cfg.devAddr ∧
        ((sampleTx s).txReady = false → ∃ t, step s = .next t ∧ txOffered t = some b) ∧
        ((sampleTx s).txReady = true → ∃ t e, step s = .next t ∧ t.bus = s.bus ++ [e] ∧ (eventBeats e).head? = some b))

/-- R33, R182, U9: RDCELL alone writes `RD_DATA`, and the observation of a run shows the register exactly where an RDCELL has
been issued since reset. The mark that says so is the model's own (log 28). -/
def Obligations.RdDataCountsOnceIssued : Prop :=
  (∀ (i : Instr) (s t : State), exec i s = .next t →
    ((∃ x y, i = .rdcell x y) → (observe t).rdData = some t.rdData) ∧
    ((∀ x y, i ≠ .rdcell x y) → t.rdData = s.rdData ∧ (observe t).rdData = (observe s).rdData)) ∧
  (∀ (s : State) (rest : List HostAct), s.cfg.geometryLegal = true → s.busy = false → s.host = .resetPin :: rest →
    ∃ t, step s = .next t ∧ (observe t).rdData = none) ∧
  (observe State.reset).rdData = none
end

