-- ==== Sys2Proof/Laws/State.lean ====
section
/-! SUPPORT. What each named update does to each field of the state: one lemma per field per update, so that no proof unfolds a
record update. The last lemma of a group says that the update leaves the framebuffer's bytes alone, where it does. -/

namespace Sys2Proof.Machine

section Updates

variable (s : State)

@[simp] theorem setFb_cfg (m : Memory) : (setFb m s).cfg = s.cfg := rfl
@[simp] theorem setFb_fb (m : Memory) : (setFb m s).fb = m := rfl
@[simp] theorem setFb_cur (m : Memory) : (setFb m s).cur = s.cur := rfl
@[simp] theorem setFb_nxt (m : Memory) : (setFb m s).nxt = s.nxt := rfl
@[simp] theorem setFb_fbValid (m : Memory) : (setFb m s).fbValid = s.fbValid := rfl
@[simp] theorem setFb_caValid (m : Memory) : (setFb m s).caValid = s.caValid := rfl
@[simp] theorem setFb_busy (m : Memory) : (setFb m s).busy = s.busy := rfl
@[simp] theorem setFb_rdData (m : Memory) : (setFb m s).rdData = s.rdData := rfl
@[simp] theorem setFb_seq (m : Memory) : (setFb m s).seq = s.seq := rfl
@[simp] theorem setFb_regs (m : Memory) : (setFb m s).regs = s.regs := rfl
@[simp] theorem setFb_bus (m : Memory) : (setFb m s).bus = s.bus := rfl
@[simp] theorem setFb_host (m : Memory) : (setFb m s).host = s.host := rfl
@[simp] theorem setFb_seedIn (m : Memory) : (setFb m s).seedIn = s.seedIn := rfl
@[simp] theorem setFb_gridIn (m : Memory) : (setFb m s).gridIn = s.gridIn := rfl
@[simp] theorem setFb_txReady (m : Memory) : (setFb m s).txReady = s.txReady := rfl
@[simp] theorem setFb_txPlan (m : Memory) : (setFb m s).txPlan = s.txPlan := rfl
@[simp] theorem setFb_powerUp (m : Memory) : (setFb m s).powerUp = s.powerUp := rfl
@[simp] theorem setFb_fresh (m : Memory) : (setFb m s).fresh = s.fresh := rfl
@[simp] theorem setFb_rdIssued (m : Memory) : (setFb m s).rdIssued = s.rdIssued := rfl
@[simp] theorem setFb_fbBase (m : Memory) : (setFb m s).fbBase = s.fbBase := rfl

@[simp] theorem accept_cfg (op : SeqOp) : (accept op s).cfg = s.cfg := rfl
@[simp] theorem accept_fb (op : SeqOp) : (accept op s).fb = s.fb := rfl
@[simp] theorem accept_cur (op : SeqOp) : (accept op s).cur = s.cur := rfl
@[simp] theorem accept_nxt (op : SeqOp) : (accept op s).nxt = s.nxt := rfl
@[simp] theorem accept_fbValid (op : SeqOp) : (accept op s).fbValid = s.fbValid := rfl
@[simp] theorem accept_caValid (op : SeqOp) : (accept op s).caValid = s.caValid := rfl
@[simp] theorem accept_busy (op : SeqOp) : (accept op s).busy = true := rfl
@[simp] theorem accept_rdData (op : SeqOp) : (accept op s).rdData = s.rdData := rfl
@[simp] theorem accept_seq (op : SeqOp) : (accept op s).seq = { s.seq with op := op } := rfl
@[simp] theorem accept_regs (op : SeqOp) : (accept op s).regs = s.regs := rfl
@[simp] theorem accept_bus (op : SeqOp) : (accept op s).bus = s.bus := rfl
@[simp] theorem accept_host (op : SeqOp) : (accept op s).host = s.host := rfl
@[simp] theorem accept_seedIn (op : SeqOp) : (accept op s).seedIn = s.seedIn := rfl
@[simp] theorem accept_gridIn (op : SeqOp) : (accept op s).gridIn = s.gridIn := rfl
@[simp] theorem accept_txReady (op : SeqOp) : (accept op s).txReady = s.txReady := rfl
@[simp] theorem accept_txPlan (op : SeqOp) : (accept op s).txPlan = s.txPlan := rfl
@[simp] theorem accept_powerUp (op : SeqOp) : (accept op s).powerUp = s.powerUp := rfl
@[simp] theorem accept_fresh (op : SeqOp) : (accept op s).fresh = s.fresh := rfl
@[simp] theorem accept_rdIssued (op : SeqOp) : (accept op s).rdIssued = s.rdIssued := rfl
@[simp] theorem accept_fbBase (op : SeqOp) : (accept op s).fbBase = s.fbBase := rfl
@[simp] theorem accept_fbByte (op : SeqOp) : fbByte (accept op s) = fbByte s := rfl

@[simp] theorem finish_cfg : (finish s).cfg = s.cfg := rfl
@[simp] theorem finish_fb : (finish s).fb = s.fb := rfl
@[simp] theorem finish_cur : (finish s).cur = s.cur := rfl
@[simp] theorem finish_nxt : (finish s).nxt = s.nxt := rfl
@[simp] theorem finish_fbValid : (finish s).fbValid = s.fbValid := rfl
@[simp] theorem finish_caValid : (finish s).caValid = s.caValid := rfl
@[simp] theorem finish_busy : (finish s).busy = false := rfl
@[simp] theorem finish_rdData : (finish s).rdData = s.rdData := rfl
@[simp] theorem finish_seq : (finish s).seq = { s.seq with op := .idle } := rfl
@[simp] theorem finish_regs : (finish s).regs = s.regs := rfl
@[simp] theorem finish_bus : (finish s).bus = s.bus := rfl
@[simp] theorem finish_host : (finish s).host = s.host := rfl
@[simp] theorem finish_seedIn : (finish s).seedIn = s.seedIn := rfl
@[simp] theorem finish_gridIn : (finish s).gridIn = s.gridIn := rfl
@[simp] theorem finish_txReady : (finish s).txReady = s.txReady := rfl
@[simp] theorem finish_txPlan : (finish s).txPlan = s.txPlan := rfl
@[simp] theorem finish_powerUp : (finish s).powerUp = s.powerUp := rfl
@[simp] theorem finish_fresh : (finish s).fresh = s.fresh := rfl
@[simp] theorem finish_rdIssued : (finish s).rdIssued = s.rdIssued := rfl
@[simp] theorem finish_fbBase : (finish s).fbBase = s.fbBase := rfl
@[simp] theorem finish_fbByte : fbByte (finish s) = fbByte s := rfl

@[simp] theorem markFbValid_cfg : (markFbValid s).cfg = s.cfg := rfl
@[simp] theorem markFbValid_fb : (markFbValid s).fb = s.fb := rfl
@[simp] theorem markFbValid_cur : (markFbValid s).cur = s.cur := rfl
@[simp] theorem markFbValid_nxt : (markFbValid s).nxt = s.nxt := rfl
@[simp] theorem markFbValid_fbValid : (markFbValid s).fbValid = true := rfl
@[simp] theorem markFbValid_caValid : (markFbValid s).caValid = s.caValid := rfl
@[simp] theorem markFbValid_busy : (markFbValid s).busy = s.busy := rfl
@[simp] theorem markFbValid_rdData : (markFbValid s).rdData = s.rdData := rfl
@[simp] theorem markFbValid_seq : (markFbValid s).seq = s.seq := rfl
@[simp] theorem markFbValid_regs : (markFbValid s).regs = s.regs := rfl
@[simp] theorem markFbValid_bus : (markFbValid s).bus = s.bus := rfl
@[simp] theorem markFbValid_host : (markFbValid s).host = s.host := rfl
@[simp] theorem markFbValid_seedIn : (markFbValid s).seedIn = s.seedIn := rfl
@[simp] theorem markFbValid_gridIn : (markFbValid s).gridIn = s.gridIn := rfl
@[simp] theorem markFbValid_txReady : (markFbValid s).txReady = s.txReady := rfl
@[simp] theorem markFbValid_txPlan : (markFbValid s).txPlan = s.txPlan := rfl
@[simp] theorem markFbValid_powerUp : (markFbValid s).powerUp = s.powerUp := rfl
@[simp] theorem markFbValid_fresh : (markFbValid s).fresh = s.fresh := rfl
@[simp] theorem markFbValid_rdIssued : (markFbValid s).rdIssued = s.rdIssued := rfl

@[simp] theorem markCaValid_cfg : (markCaValid s).cfg = s.cfg := rfl
@[simp] theorem markCaValid_fb : (markCaValid s).fb = s.fb := rfl
@[simp] theorem markCaValid_cur : (markCaValid s).cur = s.cur := rfl
@[simp] theorem markCaValid_nxt : (markCaValid s).nxt = s.nxt := rfl
@[simp] theorem markCaValid_fbValid : (markCaValid s).fbValid = s.fbValid := rfl
@[simp] theorem markCaValid_caValid : (markCaValid s).caValid = true := rfl
@[simp] theorem markCaValid_busy : (markCaValid s).busy = s.busy := rfl
@[simp] theorem markCaValid_rdData : (markCaValid s).rdData = s.rdData := rfl
@[simp] theorem markCaValid_seq : (markCaValid s).seq = s.seq := rfl
@[simp] theorem markCaValid_regs : (markCaValid s).regs = s.regs := rfl
@[simp] theorem markCaValid_bus : (markCaValid s).bus = s.bus := rfl
@[simp] theorem markCaValid_host : (markCaValid s).host = s.host := rfl
@[simp] theorem markCaValid_seedIn : (markCaValid s).seedIn = s.seedIn := rfl
@[simp] theorem markCaValid_gridIn : (markCaValid s).gridIn = s.gridIn := rfl
@[simp] theorem markCaValid_txReady : (markCaValid s).txReady = s.txReady := rfl
@[simp] theorem markCaValid_txPlan : (markCaValid s).txPlan = s.txPlan := rfl
@[simp] theorem markCaValid_powerUp : (markCaValid s).powerUp = s.powerUp := rfl
@[simp] theorem markCaValid_fresh : (markCaValid s).fresh = s.fresh := rfl
@[simp] theorem markCaValid_rdIssued : (markCaValid s).rdIssued = s.rdIssued := rfl
@[simp] theorem markCaValid_fbBase : (markCaValid s).fbBase = s.fbBase := rfl
@[simp] theorem markCaValid_fbByte : fbByte (markCaValid s) = fbByte s := rfl

@[simp] theorem clearFb_cfg : (clearFb s).cfg = s.cfg := rfl
@[simp] theorem clearFb_fb : (clearFb s).fb = [] := rfl
@[simp] theorem clearFb_cur : (clearFb s).cur = s.cur := rfl
@[simp] theorem clearFb_nxt : (clearFb s).nxt = s.nxt := rfl
@[simp] theorem clearFb_fbValid : (clearFb s).fbValid = true := rfl
@[simp] theorem clearFb_caValid : (clearFb s).caValid = s.caValid := rfl
@[simp] theorem clearFb_busy : (clearFb s).busy = s.busy := rfl
@[simp] theorem clearFb_rdData : (clearFb s).rdData = s.rdData := rfl
@[simp] theorem clearFb_seq : (clearFb s).seq = s.seq := rfl
@[simp] theorem clearFb_regs : (clearFb s).regs = s.regs := rfl
@[simp] theorem clearFb_bus : (clearFb s).bus = s.bus := rfl
@[simp] theorem clearFb_host : (clearFb s).host = s.host := rfl
@[simp] theorem clearFb_seedIn : (clearFb s).seedIn = s.seedIn := rfl
@[simp] theorem clearFb_gridIn : (clearFb s).gridIn = s.gridIn := rfl
@[simp] theorem clearFb_txReady : (clearFb s).txReady = s.txReady := rfl
@[simp] theorem clearFb_txPlan : (clearFb s).txPlan = s.txPlan := rfl
@[simp] theorem clearFb_powerUp : (clearFb s).powerUp = s.powerUp := rfl
@[simp] theorem clearFb_fresh : (clearFb s).fresh = s.fresh := rfl
@[simp] theorem clearFb_rdIssued : (clearFb s).rdIssued = s.rdIssued := rfl

@[simp] theorem busSend_cfg (bytes : List Byte) : (busSend bytes s).cfg = s.cfg := rfl
@[simp] theorem busSend_fb (bytes : List Byte) : (busSend bytes s).fb = s.fb := rfl
@[simp] theorem busSend_cur (bytes : List Byte) : (busSend bytes s).cur = s.cur := rfl
@[simp] theorem busSend_nxt (bytes : List Byte) : (busSend bytes s).nxt = s.nxt := rfl
@[simp] theorem busSend_fbValid (bytes : List Byte) : (busSend bytes s).fbValid = s.fbValid := rfl
@[simp] theorem busSend_caValid (bytes : List Byte) : (busSend bytes s).caValid = s.caValid := rfl
@[simp] theorem busSend_busy (bytes : List Byte) : (busSend bytes s).busy = s.busy := rfl
@[simp] theorem busSend_rdData (bytes : List Byte) : (busSend bytes s).rdData = s.rdData := rfl
@[simp] theorem busSend_seq (bytes : List Byte) : (busSend bytes s).seq = s.seq := rfl
@[simp] theorem busSend_regs (bytes : List Byte) : (busSend bytes s).regs = s.regs := rfl
@[simp] theorem busSend_bus (bytes : List Byte) :
    (busSend bytes s).bus = s.bus ++ [{ addr := s.cfg.devAddr, bytes := bytes }] := rfl
@[simp] theorem busSend_host (bytes : List Byte) : (busSend bytes s).host = s.host := rfl
@[simp] theorem busSend_seedIn (bytes : List Byte) : (busSend bytes s).seedIn = s.seedIn := rfl
@[simp] theorem busSend_gridIn (bytes : List Byte) : (busSend bytes s).gridIn = s.gridIn := rfl
@[simp] theorem busSend_txReady (bytes : List Byte) : (busSend bytes s).txReady = s.txReady := rfl
@[simp] theorem busSend_txPlan (bytes : List Byte) : (busSend bytes s).txPlan = s.txPlan := rfl
@[simp] theorem busSend_powerUp (bytes : List Byte) : (busSend bytes s).powerUp = s.powerUp := rfl
@[simp] theorem busSend_fresh (bytes : List Byte) : (busSend bytes s).fresh = s.fresh := rfl
@[simp] theorem busSend_rdIssued (bytes : List Byte) : (busSend bytes s).rdIssued = s.rdIssued := rfl
@[simp] theorem busSend_fbBase (bytes : List Byte) : (busSend bytes s).fbBase = s.fbBase := rfl
@[simp] theorem busSend_fbByte (bytes : List Byte) : fbByte (busSend bytes s) = fbByte s := rfl

@[simp] theorem latchXY_cfg (x y : Coord) : (latchXY x y s).cfg = s.cfg := rfl
@[simp] theorem latchXY_fb (x y : Coord) : (latchXY x y s).fb = s.fb := rfl
@[simp] theorem latchXY_cur (x y : Coord) : (latchXY x y s).cur = s.cur := rfl
@[simp] theorem latchXY_nxt (x y : Coord) : (latchXY x y s).nxt = s.nxt := rfl
@[simp] theorem latchXY_fbValid (x y : Coord) : (latchXY x y s).fbValid = s.fbValid := rfl
@[simp] theorem latchXY_caValid (x y : Coord) : (latchXY x y s).caValid = s.caValid := rfl
@[simp] theorem latchXY_busy (x y : Coord) : (latchXY x y s).busy = s.busy := rfl
@[simp] theorem latchXY_rdData (x y : Coord) : (latchXY x y s).rdData = s.rdData := rfl
@[simp] theorem latchXY_seq (x y : Coord) : (latchXY x y s).seq = s.seq := rfl
@[simp] theorem latchXY_regs (x y : Coord) : (latchXY x y s).regs = { s.regs with x := x, y := y } := rfl
@[simp] theorem latchXY_bus (x y : Coord) : (latchXY x y s).bus = s.bus := rfl
@[simp] theorem latchXY_host (x y : Coord) : (latchXY x y s).host = s.host := rfl
@[simp] theorem latchXY_seedIn (x y : Coord) : (latchXY x y s).seedIn = s.seedIn := rfl
@[simp] theorem latchXY_gridIn (x y : Coord) : (latchXY x y s).gridIn = s.gridIn := rfl
@[simp] theorem latchXY_txReady (x y : Coord) : (latchXY x y s).txReady = s.txReady := rfl
@[simp] theorem latchXY_txPlan (x y : Coord) : (latchXY x y s).txPlan = s.txPlan := rfl
@[simp] theorem latchXY_powerUp (x y : Coord) : (latchXY x y s).powerUp = s.powerUp := rfl
@[simp] theorem latchXY_fresh (x y : Coord) : (latchXY x y s).fresh = s.fresh := rfl
@[simp] theorem latchXY_rdIssued (x y : Coord) : (latchXY x y s).rdIssued = s.rdIssued := rfl
@[simp] theorem latchXY_fbBase (x y : Coord) : (latchXY x y s).fbBase = s.fbBase := rfl
@[simp] theorem latchXY_fbByte (x y : Coord) : fbByte (latchXY x y s) = fbByte s := rfl

@[simp] theorem latchV_cfg (v : Bool) : (latchV v s).cfg = s.cfg := rfl
@[simp] theorem latchV_fb (v : Bool) : (latchV v s).fb = s.fb := rfl
@[simp] theorem latchV_cur (v : Bool) : (latchV v s).cur = s.cur := rfl
@[simp] theorem latchV_nxt (v : Bool) : (latchV v s).nxt = s.nxt := rfl
@[simp] theorem latchV_fbValid (v : Bool) : (latchV v s).fbValid = s.fbValid := rfl
@[simp] theorem latchV_caValid (v : Bool) : (latchV v s).caValid = s.caValid := rfl
@[simp] theorem latchV_busy (v : Bool) : (latchV v s).busy = s.busy := rfl
@[simp] theorem latchV_rdData (v : Bool) : (latchV v s).rdData = s.rdData := rfl
@[simp] theorem latchV_seq (v : Bool) : (latchV v s).seq = s.seq := rfl
@[simp] theorem latchV_regs (v : Bool) : (latchV v s).regs = { s.regs with v := v } := rfl
@[simp] theorem latchV_bus (v : Bool) : (latchV v s).bus = s.bus := rfl
@[simp] theorem latchV_host (v : Bool) : (latchV v s).host = s.host := rfl
@[simp] theorem latchV_seedIn (v : Bool) : (latchV v s).seedIn = s.seedIn := rfl
@[simp] theorem latchV_gridIn (v : Bool) : (latchV v s).gridIn = s.gridIn := rfl
@[simp] theorem latchV_txReady (v : Bool) : (latchV v s).txReady = s.txReady := rfl
@[simp] theorem latchV_txPlan (v : Bool) : (latchV v s).txPlan = s.txPlan := rfl
@[simp] theorem latchV_powerUp (v : Bool) : (latchV v s).powerUp = s.powerUp := rfl
@[simp] theorem latchV_fresh (v : Bool) : (latchV v s).fresh = s.fresh := rfl
@[simp] theorem latchV_rdIssued (v : Bool) : (latchV v s).rdIssued = s.rdIssued := rfl
@[simp] theorem latchV_fbBase (v : Bool) : (latchV v s).fbBase = s.fbBase := rfl
@[simp] theorem latchV_fbByte (v : Bool) : fbByte (latchV v s) = fbByte s := rfl

@[simp] theorem saveSlot_cfg (b : Byte) : (saveSlot b s).cfg = s.cfg := rfl
@[simp] theorem saveSlot_fb (b : Byte) : (saveSlot b s).fb = s.fb := rfl
@[simp] theorem saveSlot_cur (b : Byte) : (saveSlot b s).cur = s.cur := rfl
@[simp] theorem saveSlot_nxt (b : Byte) : (saveSlot b s).nxt = s.nxt := rfl
@[simp] theorem saveSlot_fbValid (b : Byte) : (saveSlot b s).fbValid = s.fbValid := rfl
@[simp] theorem saveSlot_caValid (b : Byte) : (saveSlot b s).caValid = s.caValid := rfl
@[simp] theorem saveSlot_busy (b : Byte) : (saveSlot b s).busy = s.busy := rfl
@[simp] theorem saveSlot_rdData (b : Byte) : (saveSlot b s).rdData = s.rdData := rfl
@[simp] theorem saveSlot_seq (b : Byte) : (saveSlot b s).seq = s.seq := rfl
@[simp] theorem saveSlot_regs (b : Byte) : (saveSlot b s).regs = { s.regs with saved := b } := rfl
@[simp] theorem saveSlot_bus (b : Byte) : (saveSlot b s).bus = s.bus := rfl
@[simp] theorem saveSlot_host (b : Byte) : (saveSlot b s).host = s.host := rfl
@[simp] theorem saveSlot_seedIn (b : Byte) : (saveSlot b s).seedIn = s.seedIn := rfl
@[simp] theorem saveSlot_gridIn (b : Byte) : (saveSlot b s).gridIn = s.gridIn := rfl
@[simp] theorem saveSlot_txReady (b : Byte) : (saveSlot b s).txReady = s.txReady := rfl
@[simp] theorem saveSlot_txPlan (b : Byte) : (saveSlot b s).txPlan = s.txPlan := rfl
@[simp] theorem saveSlot_powerUp (b : Byte) : (saveSlot b s).powerUp = s.powerUp := rfl
@[simp] theorem saveSlot_fresh (b : Byte) : (saveSlot b s).fresh = s.fresh := rfl
@[simp] theorem saveSlot_rdIssued (b : Byte) : (saveSlot b s).rdIssued = s.rdIssued := rfl
@[simp] theorem saveSlot_fbBase (b : Byte) : (saveSlot b s).fbBase = s.fbBase := rfl
@[simp] theorem saveSlot_fbByte (b : Byte) : fbByte (saveSlot b s) = fbByte s := rfl

@[simp] theorem moveTo_cfg (p : Nat) (ph : Phase) : (moveTo p ph s).cfg = s.cfg := rfl
@[simp] theorem moveTo_fb (p : Nat) (ph : Phase) : (moveTo p ph s).fb = s.fb := rfl
@[simp] theorem moveTo_cur (p : Nat) (ph : Phase) : (moveTo p ph s).cur = s.cur := rfl
@[simp] theorem moveTo_nxt (p : Nat) (ph : Phase) : (moveTo p ph s).nxt = s.nxt := rfl
@[simp] theorem moveTo_fbValid (p : Nat) (ph : Phase) : (moveTo p ph s).fbValid = s.fbValid := rfl
@[simp] theorem moveTo_caValid (p : Nat) (ph : Phase) : (moveTo p ph s).caValid = s.caValid := rfl
@[simp] theorem moveTo_busy (p : Nat) (ph : Phase) : (moveTo p ph s).busy = s.busy := rfl
@[simp] theorem moveTo_rdData (p : Nat) (ph : Phase) : (moveTo p ph s).rdData = s.rdData := rfl
@[simp] theorem moveTo_seq (p : Nat) (ph : Phase) : (moveTo p ph s).seq = { s.seq with p := p, ph := ph } := rfl
@[simp] theorem moveTo_regs (p : Nat) (ph : Phase) : (moveTo p ph s).regs = s.regs := rfl
@[simp] theorem moveTo_bus (p : Nat) (ph : Phase) : (moveTo p ph s).bus = s.bus := rfl
@[simp] theorem moveTo_host (p : Nat) (ph : Phase) : (moveTo p ph s).host = s.host := rfl
@[simp] theorem moveTo_seedIn (p : Nat) (ph : Phase) : (moveTo p ph s).seedIn = s.seedIn := rfl
@[simp] theorem moveTo_gridIn (p : Nat) (ph : Phase) : (moveTo p ph s).gridIn = s.gridIn := rfl
@[simp] theorem moveTo_txReady (p : Nat) (ph : Phase) : (moveTo p ph s).txReady = s.txReady := rfl
@[simp] theorem moveTo_txPlan (p : Nat) (ph : Phase) : (moveTo p ph s).txPlan = s.txPlan := rfl
@[simp] theorem moveTo_powerUp (p : Nat) (ph : Phase) : (moveTo p ph s).powerUp = s.powerUp := rfl
@[simp] theorem moveTo_fresh (p : Nat) (ph : Phase) : (moveTo p ph s).fresh = s.fresh := rfl
@[simp] theorem moveTo_rdIssued (p : Nat) (ph : Phase) : (moveTo p ph s).rdIssued = s.rdIssued := rfl
@[simp] theorem moveTo_fbBase (p : Nat) (ph : Phase) : (moveTo p ph s).fbBase = s.fbBase := rfl
@[simp] theorem moveTo_fbByte (p : Nat) (ph : Phase) : fbByte (moveTo p ph s) = fbByte s := rfl

@[simp] theorem sendCmdFrame_cfg (p : Nat) : (sendCmdFrame p s).cfg = s.cfg := rfl
@[simp] theorem sendCmdFrame_fb (p : Nat) : (sendCmdFrame p s).fb = s.fb := rfl
@[simp] theorem sendCmdFrame_cur (p : Nat) : (sendCmdFrame p s).cur = s.cur := rfl
@[simp] theorem sendCmdFrame_nxt (p : Nat) : (sendCmdFrame p s).nxt = s.nxt := rfl
@[simp] theorem sendCmdFrame_fbValid (p : Nat) : (sendCmdFrame p s).fbValid = s.fbValid := rfl
@[simp] theorem sendCmdFrame_caValid (p : Nat) : (sendCmdFrame p s).caValid = s.caValid := rfl
@[simp] theorem sendCmdFrame_busy (p : Nat) : (sendCmdFrame p s).busy = s.busy := rfl
@[simp] theorem sendCmdFrame_rdData (p : Nat) : (sendCmdFrame p s).rdData = s.rdData := rfl
@[simp] theorem sendCmdFrame_seq (p : Nat) : (sendCmdFrame p s).seq = s.seq := rfl
@[simp] theorem sendCmdFrame_regs (p : Nat) : (sendCmdFrame p s).regs = s.regs := rfl
@[simp] theorem sendCmdFrame_bus (p : Nat) :
    (sendCmdFrame p s).bus = s.bus ++ [{ addr := s.cfg.devAddr, bytes := cmdFrame (BitVec.ofNat 8 p) }] := rfl
@[simp] theorem sendCmdFrame_host (p : Nat) : (sendCmdFrame p s).host = s.host := rfl
@[simp] theorem sendCmdFrame_seedIn (p : Nat) : (sendCmdFrame p s).seedIn = s.seedIn := rfl
@[simp] theorem sendCmdFrame_gridIn (p : Nat) : (sendCmdFrame p s).gridIn = s.gridIn := rfl
@[simp] theorem sendCmdFrame_txReady (p : Nat) : (sendCmdFrame p s).txReady = s.txReady := rfl
@[simp] theorem sendCmdFrame_txPlan (p : Nat) : (sendCmdFrame p s).txPlan = s.txPlan := rfl
@[simp] theorem sendCmdFrame_powerUp (p : Nat) : (sendCmdFrame p s).powerUp = s.powerUp := rfl
@[simp] theorem sendCmdFrame_fresh (p : Nat) : (sendCmdFrame p s).fresh = s.fresh := rfl
@[simp] theorem sendCmdFrame_rdIssued (p : Nat) : (sendCmdFrame p s).rdIssued = s.rdIssued := rfl
@[simp] theorem sendCmdFrame_fbBase (p : Nat) : (sendCmdFrame p s).fbBase = s.fbBase := rfl
@[simp] theorem sendCmdFrame_fbByte (p : Nat) : fbByte (sendCmdFrame p s) = fbByte s := rfl

@[simp] theorem setCur_cfg (g : Grid) : (setCur g s).cfg = s.cfg := rfl
@[simp] theorem setCur_fb (g : Grid) : (setCur g s).fb = s.fb := rfl
@[simp] theorem setCur_cur (g : Grid) : (setCur g s).cur = g := rfl
@[simp] theorem setCur_nxt (g : Grid) : (setCur g s).nxt = s.nxt := rfl
@[simp] theorem setCur_fbValid (g : Grid) : (setCur g s).fbValid = s.fbValid := rfl
@[simp] theorem setCur_caValid (g : Grid) : (setCur g s).caValid = s.caValid := rfl
@[simp] theorem setCur_busy (g : Grid) : (setCur g s).busy = s.busy := rfl
@[simp] theorem setCur_rdData (g : Grid) : (setCur g s).rdData = s.rdData := rfl
@[simp] theorem setCur_seq (g : Grid) : (setCur g s).seq = s.seq := rfl
@[simp] theorem setCur_regs (g : Grid) : (setCur g s).regs = s.regs := rfl
@[simp] theorem setCur_bus (g : Grid) : (setCur g s).bus = s.bus := rfl
@[simp] theorem setCur_host (g : Grid) : (setCur g s).host = s.host := rfl
@[simp] theorem setCur_seedIn (g : Grid) : (setCur g s).seedIn = s.seedIn := rfl
@[simp] theorem setCur_gridIn (g : Grid) : (setCur g s).gridIn = s.gridIn := rfl
@[simp] theorem setCur_txReady (g : Grid) : (setCur g s).txReady = s.txReady := rfl
@[simp] theorem setCur_txPlan (g : Grid) : (setCur g s).txPlan = s.txPlan := rfl
@[simp] theorem setCur_powerUp (g : Grid) : (setCur g s).powerUp = s.powerUp := rfl
@[simp] theorem setCur_fresh (g : Grid) : (setCur g s).fresh = s.fresh := rfl
@[simp] theorem setCur_rdIssued (g : Grid) : (setCur g s).rdIssued = s.rdIssued := rfl
@[simp] theorem setCur_fbBase (g : Grid) : (setCur g s).fbBase = s.fbBase := rfl
@[simp] theorem setCur_fbByte (g : Grid) : fbByte (setCur g s) = fbByte s := rfl

@[simp] theorem setNxt_cfg (g : Grid) : (setNxt g s).cfg = s.cfg := rfl
@[simp] theorem setNxt_fb (g : Grid) : (setNxt g s).fb = s.fb := rfl
@[simp] theorem setNxt_cur (g : Grid) : (setNxt g s).cur = s.cur := rfl
@[simp] theorem setNxt_nxt (g : Grid) : (setNxt g s).nxt = g := rfl
@[simp] theorem setNxt_fbValid (g : Grid) : (setNxt g s).fbValid = s.fbValid := rfl
@[simp] theorem setNxt_caValid (g : Grid) : (setNxt g s).caValid = s.caValid := rfl
@[simp] theorem setNxt_busy (g : Grid) : (setNxt g s).busy = s.busy := rfl
@[simp] theorem setNxt_rdData (g : Grid) : (setNxt g s).rdData = s.rdData := rfl
@[simp] theorem setNxt_seq (g : Grid) : (setNxt g s).seq = s.seq := rfl
@[simp] theorem setNxt_regs (g : Grid) : (setNxt g s).regs = s.regs := rfl
@[simp] theorem setNxt_bus (g : Grid) : (setNxt g s).bus = s.bus := rfl
@[simp] theorem setNxt_host (g : Grid) : (setNxt g s).host = s.host := rfl
@[simp] theorem setNxt_seedIn (g : Grid) : (setNxt g s).seedIn = s.seedIn := rfl
@[simp] theorem setNxt_gridIn (g : Grid) : (setNxt g s).gridIn = s.gridIn := rfl
@[simp] theorem setNxt_txReady (g : Grid) : (setNxt g s).txReady = s.txReady := rfl
@[simp] theorem setNxt_txPlan (g : Grid) : (setNxt g s).txPlan = s.txPlan := rfl
@[simp] theorem setNxt_powerUp (g : Grid) : (setNxt g s).powerUp = s.powerUp := rfl
@[simp] theorem setNxt_fresh (g : Grid) : (setNxt g s).fresh = s.fresh := rfl
@[simp] theorem setNxt_rdIssued (g : Grid) : (setNxt g s).rdIssued = s.rdIssued := rfl
@[simp] theorem setNxt_fbBase (g : Grid) : (setNxt g s).fbBase = s.fbBase := rfl
@[simp] theorem setNxt_fbByte (g : Grid) : fbByte (setNxt g s) = fbByte s := rfl

@[simp] theorem setRdData_cfg (b : Bool) : (setRdData b s).cfg = s.cfg := rfl
@[simp] theorem setRdData_fb (b : Bool) : (setRdData b s).fb = s.fb := rfl
@[simp] theorem setRdData_cur (b : Bool) : (setRdData b s).cur = s.cur := rfl
@[simp] theorem setRdData_nxt (b : Bool) : (setRdData b s).nxt = s.nxt := rfl
@[simp] theorem setRdData_fbValid (b : Bool) : (setRdData b s).fbValid = s.fbValid := rfl
@[simp] theorem setRdData_caValid (b : Bool) : (setRdData b s).caValid = s.caValid := rfl
@[simp] theorem setRdData_busy (b : Bool) : (setRdData b s).busy = s.busy := rfl
@[simp] theorem setRdData_rdData (b : Bool) : (setRdData b s).rdData = b := rfl
@[simp] theorem setRdData_seq (b : Bool) : (setRdData b s).seq = s.seq := rfl
@[simp] theorem setRdData_regs (b : Bool) : (setRdData b s).regs = s.regs := rfl
@[simp] theorem setRdData_bus (b : Bool) : (setRdData b s).bus = s.bus := rfl
@[simp] theorem setRdData_host (b : Bool) : (setRdData b s).host = s.host := rfl
@[simp] theorem setRdData_seedIn (b : Bool) : (setRdData b s).seedIn = s.seedIn := rfl
@[simp] theorem setRdData_gridIn (b : Bool) : (setRdData b s).gridIn = s.gridIn := rfl
@[simp] theorem setRdData_txReady (b : Bool) : (setRdData b s).txReady = s.txReady := rfl
@[simp] theorem setRdData_txPlan (b : Bool) : (setRdData b s).txPlan = s.txPlan := rfl
@[simp] theorem setRdData_powerUp (b : Bool) : (setRdData b s).powerUp = s.powerUp := rfl
@[simp] theorem setRdData_fresh (b : Bool) : (setRdData b s).fresh = s.fresh := rfl
@[simp] theorem setRdData_rdIssued (b : Bool) : (setRdData b s).rdIssued = true := rfl
@[simp] theorem setRdData_fbBase (b : Bool) : (setRdData b s).fbBase = s.fbBase := rfl
@[simp] theorem setRdData_fbByte (b : Bool) : fbByte (setRdData b s) = fbByte s := rfl

@[simp] theorem leaveCount_cfg : (leaveCount s).cfg = s.cfg := rfl
@[simp] theorem leaveCount_fb : (leaveCount s).fb = s.fb := rfl
@[simp] theorem leaveCount_cur : (leaveCount s).cur = s.cur := rfl
@[simp] theorem leaveCount_nxt : (leaveCount s).nxt = s.nxt := rfl
@[simp] theorem leaveCount_fbValid : (leaveCount s).fbValid = s.fbValid := rfl
@[simp] theorem leaveCount_caValid : (leaveCount s).caValid = s.caValid := rfl
@[simp] theorem leaveCount_busy : (leaveCount s).busy = s.busy := rfl
@[simp] theorem leaveCount_rdData : (leaveCount s).rdData = s.rdData := rfl
@[simp] theorem leaveCount_seq : (leaveCount s).seq = s.seq := rfl
@[simp] theorem leaveCount_regs :
    (leaveCount s).regs = { s.regs with ncnt := BitVec.ofNat 3 ((Config.freeRegs s.fresh).ncnt.toNat % 5) } := rfl
@[simp] theorem leaveCount_bus : (leaveCount s).bus = s.bus := rfl
@[simp] theorem leaveCount_host : (leaveCount s).host = s.host := rfl
@[simp] theorem leaveCount_seedIn : (leaveCount s).seedIn = s.seedIn := rfl
@[simp] theorem leaveCount_gridIn : (leaveCount s).gridIn = s.gridIn := rfl
@[simp] theorem leaveCount_txReady : (leaveCount s).txReady = s.txReady := rfl
@[simp] theorem leaveCount_txPlan : (leaveCount s).txPlan = s.txPlan := rfl
@[simp] theorem leaveCount_powerUp : (leaveCount s).powerUp = s.powerUp := rfl
@[simp] theorem leaveCount_fresh : (leaveCount s).fresh = s.fresh := rfl
@[simp] theorem leaveCount_rdIssued : (leaveCount s).rdIssued = s.rdIssued := rfl
@[simp] theorem leaveCount_fbBase : (leaveCount s).fbBase = s.fbBase := rfl
@[simp] theorem leaveCount_fbByte : fbByte (leaveCount s) = fbByte s := rfl

@[simp] theorem endScan_cfg : (endScan s).cfg = s.cfg := rfl
@[simp] theorem endScan_fb : (endScan s).fb = s.fb := rfl
@[simp] theorem endScan_cur : (endScan s).cur = s.cur := rfl
@[simp] theorem endScan_nxt : (endScan s).nxt = gridOf s.cfg.gw s.cfg.gh (Config.freeCell s.fresh) := rfl
@[simp] theorem endScan_fbValid : (endScan s).fbValid = s.fbValid := rfl
@[simp] theorem endScan_caValid : (endScan s).caValid = s.caValid := rfl
@[simp] theorem endScan_busy : (endScan s).busy = s.busy := rfl
@[simp] theorem endScan_rdData : (endScan s).rdData = s.rdData := rfl
@[simp] theorem endScan_seq :
    (endScan s).seq = { s.seq with cx := (Config.freeSeq s.fresh).cx % s.cfg.gw, cy := (Config.freeSeq s.fresh).cy % s.cfg.gh } := rfl
@[simp] theorem endScan_regs : (endScan s).regs = s.regs := rfl
@[simp] theorem endScan_bus : (endScan s).bus = s.bus := rfl
@[simp] theorem endScan_host : (endScan s).host = s.host := rfl
@[simp] theorem endScan_seedIn : (endScan s).seedIn = s.seedIn := rfl
@[simp] theorem endScan_gridIn : (endScan s).gridIn = s.gridIn := rfl
@[simp] theorem endScan_txReady : (endScan s).txReady = s.txReady := rfl
@[simp] theorem endScan_txPlan : (endScan s).txPlan = s.txPlan := rfl
@[simp] theorem endScan_powerUp : (endScan s).powerUp = s.powerUp := rfl
@[simp] theorem endScan_fresh : (endScan s).fresh = s.fresh + 1 := rfl
@[simp] theorem endScan_rdIssued : (endScan s).rdIssued = s.rdIssued := rfl
@[simp] theorem endScan_fbBase : (endScan s).fbBase = s.fbBase := rfl
@[simp] theorem endScan_fbByte : fbByte (endScan s) = fbByte s := rfl

@[simp] theorem offerFirst_cfg (w : Word) : (offerFirst w s).cfg = s.cfg := rfl
@[simp] theorem offerFirst_fb (w : Word) : (offerFirst w s).fb = s.fb := rfl
@[simp] theorem offerFirst_cur (w : Word) : (offerFirst w s).cur = s.cur := rfl
@[simp] theorem offerFirst_nxt (w : Word) : (offerFirst w s).nxt = s.nxt := rfl
@[simp] theorem offerFirst_fbValid (w : Word) : (offerFirst w s).fbValid = s.fbValid := rfl
@[simp] theorem offerFirst_caValid (w : Word) : (offerFirst w s).caValid = s.caValid := rfl
@[simp] theorem offerFirst_busy (w : Word) : (offerFirst w s).busy = s.busy := rfl
@[simp] theorem offerFirst_rdData (w : Word) : (offerFirst w s).rdData = s.rdData := rfl
@[simp] theorem offerFirst_seq (w : Word) : (offerFirst w s).seq = s.seq := rfl
@[simp] theorem offerFirst_regs (w : Word) : (offerFirst w s).regs = s.regs := rfl
@[simp] theorem offerFirst_bus (w : Word) : (offerFirst w s).bus = s.bus := rfl
@[simp] theorem offerFirst_host (w : Word) :
    (offerFirst w s).host = .offer { cmd := w, seedIn := s.seedIn, gridIn := s.gridIn } :: s.host := rfl
@[simp] theorem offerFirst_seedIn (w : Word) : (offerFirst w s).seedIn = s.seedIn := rfl
@[simp] theorem offerFirst_gridIn (w : Word) : (offerFirst w s).gridIn = s.gridIn := rfl
@[simp] theorem offerFirst_txReady (w : Word) : (offerFirst w s).txReady = s.txReady := rfl
@[simp] theorem offerFirst_txPlan (w : Word) : (offerFirst w s).txPlan = s.txPlan := rfl
@[simp] theorem offerFirst_powerUp (w : Word) : (offerFirst w s).powerUp = s.powerUp := rfl
@[simp] theorem offerFirst_fresh (w : Word) : (offerFirst w s).fresh = s.fresh := rfl
@[simp] theorem offerFirst_rdIssued (w : Word) : (offerFirst w s).rdIssued = s.rdIssued := rfl
@[simp] theorem offerFirst_fbBase (w : Word) : (offerFirst w s).fbBase = s.fbBase := rfl
@[simp] theorem offerFirst_fbByte (w : Word) : fbByte (offerFirst w s) = fbByte s := rfl

@[simp] theorem takeOffer_cfg (o : Offer) (rest : List HostAct) : (takeOffer o rest s).cfg = s.cfg := rfl
@[simp] theorem takeOffer_fb (o : Offer) (rest : List HostAct) : (takeOffer o rest s).fb = s.fb := rfl
@[simp] theorem takeOffer_cur (o : Offer) (rest : List HostAct) : (takeOffer o rest s).cur = s.cur := rfl
@[simp] theorem takeOffer_nxt (o : Offer) (rest : List HostAct) : (takeOffer o rest s).nxt = s.nxt := rfl
@[simp] theorem takeOffer_fbValid (o : Offer) (rest : List HostAct) : (takeOffer o rest s).fbValid = s.fbValid := rfl
@[simp] theorem takeOffer_caValid (o : Offer) (rest : List HostAct) : (takeOffer o rest s).caValid = s.caValid := rfl
@[simp] theorem takeOffer_busy (o : Offer) (rest : List HostAct) : (takeOffer o rest s).busy = s.busy := rfl
@[simp] theorem takeOffer_rdData (o : Offer) (rest : List HostAct) : (takeOffer o rest s).rdData = s.rdData := rfl
@[simp] theorem takeOffer_seq (o : Offer) (rest : List HostAct) : (takeOffer o rest s).seq = s.seq := rfl
@[simp] theorem takeOffer_regs (o : Offer) (rest : List HostAct) : (takeOffer o rest s).regs = s.regs := rfl
@[simp] theorem takeOffer_bus (o : Offer) (rest : List HostAct) : (takeOffer o rest s).bus = s.bus := rfl
@[simp] theorem takeOffer_host (o : Offer) (rest : List HostAct) : (takeOffer o rest s).host = rest := rfl
@[simp] theorem takeOffer_seedIn (o : Offer) (rest : List HostAct) : (takeOffer o rest s).seedIn = o.seedIn := rfl
@[simp] theorem takeOffer_gridIn (o : Offer) (rest : List HostAct) : (takeOffer o rest s).gridIn = o.gridIn := rfl
@[simp] theorem takeOffer_txReady (o : Offer) (rest : List HostAct) : (takeOffer o rest s).txReady = s.txReady := rfl
@[simp] theorem takeOffer_txPlan (o : Offer) (rest : List HostAct) : (takeOffer o rest s).txPlan = s.txPlan := rfl
@[simp] theorem takeOffer_powerUp (o : Offer) (rest : List HostAct) : (takeOffer o rest s).powerUp = s.powerUp := rfl
@[simp] theorem takeOffer_fresh (o : Offer) (rest : List HostAct) : (takeOffer o rest s).fresh = s.fresh := rfl
@[simp] theorem takeOffer_rdIssued (o : Offer) (rest : List HostAct) :
    (takeOffer o rest s).rdIssued = s.rdIssued := rfl
@[simp] theorem takeOffer_fbBase (o : Offer) (rest : List HostAct) : (takeOffer o rest s).fbBase = s.fbBase := rfl
@[simp] theorem takeOffer_fbByte (o : Offer) (rest : List HostAct) : fbByte (takeOffer o rest s) = fbByte s := rfl

end Updates

@[simp] theorem latchAdec_cfg (x y : Coord) (s : State) : (latchAdec x y s).cfg = s.cfg := by
  unfold latchAdec; split <;> rfl
@[simp] theorem latchAdec_fb (x y : Coord) (s : State) : (latchAdec x y s).fb = s.fb := by
  unfold latchAdec; split <;> rfl
@[simp] theorem latchAdec_cur (x y : Coord) (s : State) : (latchAdec x y s).cur = s.cur := by
  unfold latchAdec; split <;> rfl
@[simp] theorem latchAdec_nxt (x y : Coord) (s : State) : (latchAdec x y s).nxt = s.nxt := by
  unfold latchAdec; split <;> rfl
@[simp] theorem latchAdec_fbValid (x y : Coord) (s : State) : (latchAdec x y s).fbValid = s.fbValid := by
  unfold latchAdec; split <;> rfl
@[simp] theorem latchAdec_caValid (x y : Coord) (s : State) : (latchAdec x y s).caValid = s.caValid := by
  unfold latchAdec; split <;> rfl
@[simp] theorem latchAdec_busy (x y : Coord) (s : State) : (latchAdec x y s).busy = s.busy := by
  unfold latchAdec; split <;> rfl
@[simp] theorem latchAdec_rdData (x y : Coord) (s : State) : (latchAdec x y s).rdData = s.rdData := by
  unfold latchAdec; split <;> rfl
@[simp] theorem latchAdec_seq (x y : Coord) (s : State) : (latchAdec x y s).seq = s.seq := by
  unfold latchAdec; split <;> rfl
@[simp] theorem latchAdec_bus (x y : Coord) (s : State) : (latchAdec x y s).bus = s.bus := by
  unfold latchAdec; split <;> rfl
@[simp] theorem latchAdec_host (x y : Coord) (s : State) : (latchAdec x y s).host = s.host := by
  unfold latchAdec; split <;> rfl
@[simp] theorem latchAdec_seedIn (x y : Coord) (s : State) : (latchAdec x y s).seedIn = s.seedIn := by
  unfold latchAdec; split <;> rfl
@[simp] theorem latchAdec_gridIn (x y : Coord) (s : State) : (latchAdec x y s).gridIn = s.gridIn := by
  unfold latchAdec; split <;> rfl
@[simp] theorem latchAdec_txReady (x y : Coord) (s : State) : (latchAdec x y s).txReady = s.txReady := by
  unfold latchAdec; split <;> rfl
@[simp] theorem latchAdec_txPlan (x y : Coord) (s : State) : (latchAdec x y s).txPlan = s.txPlan := by
  unfold latchAdec; split <;> rfl
@[simp] theorem latchAdec_powerUp (x y : Coord) (s : State) : (latchAdec x y s).powerUp = s.powerUp := by
  unfold latchAdec; split <;> rfl
@[simp] theorem latchAdec_rdIssued (x y : Coord) (s : State) : (latchAdec x y s).rdIssued = s.rdIssued := by
  unfold latchAdec; split <;> rfl
@[simp] theorem latchAdec_fbBase (x y : Coord) (s : State) : (latchAdec x y s).fbBase = s.fbBase := by
  unfold latchAdec; split <;> rfl
@[simp] theorem latchAdec_fbByte (x y : Coord) (s : State) : fbByte (latchAdec x y s) = fbByte s := by
  unfold latchAdec; split <;> rfl

@[simp] theorem sampleTx_cfg (s : State) : (sampleTx s).cfg = s.cfg := by
  unfold sampleTx; split <;> rfl
@[simp] theorem sampleTx_fb (s : State) : (sampleTx s).fb = s.fb := by
  unfold sampleTx; split <;> rfl
@[simp] theorem sampleTx_cur (s : State) : (sampleTx s).cur = s.cur := by
  unfold sampleTx; split <;> rfl
@[simp] theorem sampleTx_nxt (s : State) : (sampleTx s).nxt = s.nxt := by
  unfold sampleTx; split <;> rfl
@[simp] theorem sampleTx_fbValid (s : State) : (sampleTx s).fbValid = s.fbValid := by
  unfold sampleTx; split <;> rfl
@[simp] theorem sampleTx_caValid (s : State) : (sampleTx s).caValid = s.caValid := by
  unfold sampleTx; split <;> rfl
@[simp] theorem sampleTx_busy (s : State) : (sampleTx s).busy = s.busy := by
  unfold sampleTx; split <;> rfl
@[simp] theorem sampleTx_rdData (s : State) : (sampleTx s).rdData = s.rdData := by
  unfold sampleTx; split <;> rfl
@[simp] theorem sampleTx_seq (s : State) : (sampleTx s).seq = s.seq := by
  unfold sampleTx; split <;> rfl
@[simp] theorem sampleTx_regs (s : State) : (sampleTx s).regs = s.regs := by
  unfold sampleTx; split <;> rfl
@[simp] theorem sampleTx_bus (s : State) : (sampleTx s).bus = s.bus := by
  unfold sampleTx; split <;> rfl
@[simp] theorem sampleTx_host (s : State) : (sampleTx s).host = s.host := by
  unfold sampleTx; split <;> rfl
@[simp] theorem sampleTx_seedIn (s : State) : (sampleTx s).seedIn = s.seedIn := by
  unfold sampleTx; split <;> rfl
@[simp] theorem sampleTx_gridIn (s : State) : (sampleTx s).gridIn = s.gridIn := by
  unfold sampleTx; split <;> rfl
@[simp] theorem sampleTx_powerUp (s : State) : (sampleTx s).powerUp = s.powerUp := by
  unfold sampleTx; split <;> rfl
@[simp] theorem sampleTx_fresh (s : State) : (sampleTx s).fresh = s.fresh := by
  unfold sampleTx; split <;> rfl
@[simp] theorem sampleTx_rdIssued (s : State) : (sampleTx s).rdIssued = s.rdIssued := by
  unfold sampleTx; split <;> rfl
@[simp] theorem sampleTx_fbBase (s : State) : (sampleTx s).fbBase = s.fbBase := by
  unfold sampleTx; split <;> rfl
@[simp] theorem sampleTx_fbByte (s : State) : fbByte (sampleTx s) = fbByte s := by
  unfold sampleTx; split <;> rfl

end Sys2Proof.Machine
end

