-- ==== Sys2Proof/Laws/Grid.lean ====
section
/-! SUPPORT. The laws of bit matrices: the cells and the shape of `gridOf`, and that cells tell two matrices of one shape
apart. -/

namespace Sys2Proof.Machine

/-- The cells of `gridOf`: `f` inside, dead outside. -/
theorem cell_gridOf (gw gh : Nat) (f : Nat → Nat → Bool) (x y : Nat) :
    cell (gridOf gw gh f) x y = (decide (x < gw ∧ y < gh) && f x y) := by
  unfold cell gridOf
  by_cases hy : y < gh
  · by_cases hx : x < gw
    · simp [hx, hy]
    · simp [hx, hy]
  · simp [hy]

theorem cell_gridOf_of_lt {gw gh x y : Nat} (f : Nat → Nat → Bool) (hx : x < gw) (hy : y < gh) :
    cell (gridOf gw gh f) x y = f x y := by
  simp [cell_gridOf, hx, hy]

/-- `gridOf` has the shape it is asked for. -/
@[simp] theorem gridShape_gridOf (gw gh : Nat) (f : Nat → Nat → Bool) :
    gridShape gw gh (gridOf gw gh f) = true := by
  simp [gridShape, gridOf]

theorem gridShape_iff {gw gh : Nat} {g : Grid} :
    gridShape gw gh g = true ↔ g.length = gh ∧ ∀ row ∈ g, row.length = gw := by
  simp [gridShape]

/-- A matrix of a shape is `gridOf` of its own cells. -/
theorem gridOf_cell {gw gh : Nat} {g : Grid} (h : gridShape gw gh g = true) : gridOf gw gh (cell g) = g := by
  obtain ⟨hlen, hrow⟩ := gridShape_iff.mp h
  apply List.ext_getElem
  · simp [gridOf, hlen]
  intro y hy1 hy2
  have hr : (g[y]).length = gw := hrow _ (List.getElem_mem hy2)
  apply List.ext_getElem
  · simp [gridOf, hr]
  intro x hx1 hx2
  simp [gridOf, cell, hy2, hx2]

/-- Two matrices of one shape with the same cells are equal. -/
theorem grid_ext {gw gh : Nat} {g g' : Grid} (h : gridShape gw gh g = true) (h' : gridShape gw gh g' = true)
    (hc : ∀ x y, x < gw → y < gh → cell g x y = cell g' x y) : g = g' := by
  rw [← gridOf_cell h, ← gridOf_cell h']
  refine List.map_congr_left fun y hy => List.map_congr_left fun x hx => ?_
  exact hc x y (List.mem_range.mp hx) (List.mem_range.mp hy)

/-- Outside its shape a matrix reads dead. -/
theorem cell_of_not_lt {gw gh x y : Nat} {g : Grid} (h : gridShape gw gh g = true) (hxy : ¬ (x < gw ∧ y < gh)) :
    cell g x y = false := by
  rw [← gridOf_cell h, cell_gridOf]
  simp [hxy]

end Sys2Proof.Machine
end

