-- ==== Sys2Proof/Laws/Automaton.lean ====
section
/-! SUPPORT. The automaton's functions cell by cell: `Alive` as a condition, the cells of `NextGen`, the rule as a condition,
and the bits of a packed row. -/

namespace Sys2Proof.Machine

/-- `Alive` as a condition (R113). -/
theorem alive_iff {c : Config} {g : Grid} {i j : Int} :
    alive c g i j = true ↔
      0 ≤ i ∧ i < c.gw ∧ 0 ≤ j ∧ j < c.gh ∧ cell g i.toNat j.toNat = true := by
  simp only [alive, Bool.and_eq_true, decide_eq_true_eq, and_assoc]

/-- `Alive` at natural positions (R113, R128). -/
theorem alive_natCast (c : Config) (g : Grid) (x y : Nat) :
    alive c g x y = if x < c.gw ∧ y < c.gh then cell g x y else false := by
  split
  · next h => simp [alive, h.1, h.2]
  · next h => simp [alive]; omega

/-- The rule as a condition (R117). -/
theorem nextCell_iff {a : Bool} {n : Nat} : nextCell a n = true ↔ n = 3 ∨ (a = true ∧ n = 2) := by simp [nextCell]

/-- The cells of `NextGen(G)` (R119). -/
theorem cell_nextGen {c : Config} {g : Grid} {x y : Nat} (hx : x < c.gw) (hy : y < c.gh) :
    cell (nextGen c g) x y = nextCell (cell g x y) (satCount c g x y) :=
  cell_gridOf_of_lt _ hx hy

/-- `NextGen(G)` has the engine's shape (R119). -/
@[simp] theorem gridShape_nextGen (c : Config) (g : Grid) : gridShape c.gw c.gh (nextGen c g) = true :=
  gridShape_gridOf _ _ _

/-- `NextGen` reads nothing of the build but the grid's size, and nothing of a grid but its cells (R119). -/
theorem nextGen_congr {c : Config} {g g' : Grid} (h : cell g = cell g') : nextGen c g = nextGen c g' := by
  have ha : alive c g = alive c g' := by
    funext i j
    simp [alive, h]
  simp [nextGen, satCount, count, ha, h]

/-- A bit of a packed row (R69). -/
theorem packRow_testBit (row : List Bool) (k : Nat) : (packRow row).testBit k = (row[k]?).getD false := by
  induction row generalizing k with
  | nil => simp [packRow]
  | cons b rest ih =>
    cases k with
    | zero => cases b <;> simp [packRow, Nat.testBit_zero]
    | succ k =>
      have hdiv : packRow (b :: rest) / 2 = packRow rest := by cases b <;> simp [packRow]; omega
      rw [Nat.testBit_succ, hdiv, ih]
      simp

end Sys2Proof.Machine
end

