-- ==== Sys2Proof/Laws/Memory.lean ====
section
/-! SUPPORT. The laws of the framebuffer's memory: a read after a write, a write elsewhere, and that every operation keeps the
canonical form. The read laws hold of every list, canonical or not. -/

namespace Sys2Proof.Machine

variable {base : Nat → Byte}

theorem read_erase_same (m : Memory) (a : Nat) : Memory.read base (Memory.erase a m) a = base a := by
  induction m with
  | nil => rfl
  | cons c rest ih =>
    by_cases h : c.1 = a
    · simpa [Memory.erase, h] using ih
    · simpa [Memory.erase, h, Memory.read] using ih

theorem read_erase_other (m : Memory) {a a' : Nat} (h : a' ≠ a) :
    Memory.read base (Memory.erase a m) a' = Memory.read base m a' := by
  induction m with
  | nil => rfl
  | cons c rest ih =>
    by_cases hc : c.1 = a
    · simpa [Memory.erase, hc, Memory.read, Ne.symm h] using ih
    · by_cases hc' : c.1 = a'
      · simp [Memory.erase, Memory.read, hc', h]
      · simpa [Memory.erase, hc, Memory.read, hc'] using ih

theorem read_place_other (m : Memory) {a a' : Nat} (b : Byte) (h : a' ≠ a) :
    Memory.read base (Memory.place a b m) a' = Memory.read base m a' := by
  induction m with
  | nil => simp [Memory.place, Memory.read, Ne.symm h]
  | cons c rest ih =>
    by_cases hlt : a < c.1
    · simp [Memory.place, hlt, Memory.read, Ne.symm h]
    · simp [Memory.place, hlt, Memory.read, ih]

theorem read_place_same (m : Memory) (a : Nat) (b : Byte) (h : ∀ c ∈ m, c.1 ≠ a) :
    Memory.read base (Memory.place a b m) a = b := by
  induction m with
  | nil => simp [Memory.place, Memory.read]
  | cons c rest ih =>
    have hc : c.1 ≠ a := h c (by simp)
    by_cases hlt : a < c.1
    · simp [Memory.place, hlt, Memory.read]
    · simpa [Memory.place, hlt, Memory.read, hc] using ih fun d hd => h d (by simp [hd])

theorem mem_erase_ne {m : Memory} {a : Nat} {c : Host.Cell} (h : c ∈ Memory.erase a m) : c.1 ≠ a := by
  simpa using (List.mem_filter.mp h).2

/-- A read after a write to the same index gives the byte written. -/
@[simp] theorem read_write_same (m : Memory) (a : Nat) (b : Byte) :
    Memory.read base (Memory.write base a b m) a = b := by
  unfold Memory.write
  split
  · next h => rw [read_erase_same, h]
  · exact read_place_same _ _ _ fun c hc => mem_erase_ne hc

/-- A write leaves every other index alone. -/
theorem read_write_other (m : Memory) {a a' : Nat} (b : Byte) (h : a' ≠ a) :
    Memory.read base (Memory.write base a b m) a' = Memory.read base m a' := by
  unfold Memory.write
  split
  · exact read_erase_other m h
  · rw [read_place_other _ _ h, read_erase_other m h]

theorem read_write (m : Memory) (a a' : Nat) (b : Byte) :
    Memory.read base (Memory.write base a b m) a' = if a' = a then b else Memory.read base m a' := by
  split
  · next h => rw [h, read_write_same]
  · next h => exact read_write_other m b h

/-- The canonical form as a proposition. -/
theorem wf_iff {n : Nat} {m : Memory} :
    Memory.wf base n m = true ↔
      m.Pairwise (fun p q => p.1 < q.1) ∧ ∀ c ∈ m, c.1 < n ∧ c.2 ≠ base c.1 := by
  simp [Memory.wf, List.all_eq_true]

theorem mem_place {m : Memory} {a : Nat} {b : Byte} {c : Host.Cell} (h : c ∈ Memory.place a b m) :
    c = (a, b) ∨ c ∈ m := by
  induction m with
  | nil => simpa [Memory.place] using h
  | cons d rest ih =>
    by_cases hlt : a < d.1
    · simpa [Memory.place, hlt] using h
    · simp only [Memory.place, hlt, if_false, List.mem_cons] at h
      rcases h with h | h
      · exact .inr (by simp [h])
      · rcases ih h with h | h
        · exact .inl h
        · exact .inr (by simp [h])

theorem pairwise_place {m : Memory} (a : Nat) (b : Byte) (hm : m.Pairwise fun p q => p.1 < q.1)
    (hne : ∀ c ∈ m, c.1 ≠ a) : (Memory.place a b m).Pairwise fun p q => p.1 < q.1 := by
  induction m with
  | nil => simp [Memory.place]
  | cons d rest ih =>
    obtain ⟨hd, hrest⟩ := List.pairwise_cons.mp hm
    by_cases hlt : a < d.1
    · simp only [Memory.place, hlt, if_true, List.pairwise_cons]
      refine ⟨fun c hc => ?_, hd, hrest⟩
      rcases List.mem_cons.mp hc with h | h
      · exact h ▸ hlt
      · exact Nat.lt_trans hlt (hd c h)
    · simp only [Memory.place, hlt, if_false, List.pairwise_cons]
      refine ⟨fun c hc => ?_, ih hrest fun c hc => hne c (by simp [hc])⟩
      rcases mem_place hc with h | h
      · have hda : d.1 ≠ a := hne d (by simp)
        rw [h]
        show d.1 < a
        omega
      · exact hd c h

/-- A write at an existing index keeps the canonical form. -/
theorem wf_write {n : Nat} {m : Memory} {a : Nat} {b : Byte} (ha : a < n) (hm : Memory.wf base n m = true) :
    Memory.wf base n (Memory.write base a b m) = true := by
  rw [wf_iff] at hm ⊢
  obtain ⟨hp, hall⟩ := hm
  have hpe : (Memory.erase a m).Pairwise fun p q => p.1 < q.1 := hp.filter _
  have halle : ∀ c ∈ Memory.erase a m, c.1 < n ∧ c.2 ≠ base c.1 :=
    fun c hc => hall c (List.mem_of_mem_filter hc)
  unfold Memory.write
  split
  · exact ⟨hpe, halle⟩
  · next hb =>
    refine ⟨pairwise_place a b hpe fun c hc => mem_erase_ne hc, fun c hc => ?_⟩
    rcases mem_place hc with h | h
    · exact h ▸ ⟨ha, hb⟩
    · exact halle c h

/-- The empty list is canonical. -/
@[simp] theorem wf_nil (n : Nat) : Memory.wf base n [] = true := rfl

/-- A run of writes inside the buffer keeps the canonical form. -/
theorem wf_writeAll {n : Nat} {v : List Byte} {m : Memory} {a : Nat} (ha : a + v.length ≤ n)
    (hm : Memory.wf base n m = true) : Memory.wf base n (Memory.writeAll base a v m) = true := by
  induction v generalizing a m with
  | nil => exact hm
  | cons b rest ih =>
    simp only [List.length_cons] at ha
    exact ih (by omega) (wf_write (by omega) hm)

theorem read_writeAll_other (v : List Byte) (m : Memory) {a a' : Nat} (h : a' < a ∨ a + v.length ≤ a') :
    Memory.read base (Memory.writeAll base a v m) a' = Memory.read base m a' := by
  induction v generalizing a m with
  | nil => rfl
  | cons b rest ih =>
    simp only [List.length_cons] at h
    unfold Memory.writeAll
    rw [ih _ (by omega), read_write_other _ _ (by omega)]

theorem read_of_forall_lt {m : Memory} {a : Nat} (h : ∀ c ∈ m, a < c.1) : Memory.read base m a = base a := by
  induction m with
  | nil => rfl
  | cons c rest ih =>
    have hc : c.1 ≠ a := Nat.ne_of_gt (h c (by simp))
    simpa [Memory.read, hc] using ih fun d hd => h d (by simp [hd])

/-- Equal memories are equal data: two canonical lists that read alike are one list. -/
theorem eq_of_read_eq {n : Nat} {m m' : Memory} (hm : Memory.wf base n m = true)
    (hm' : Memory.wf base n m' = true) (h : ∀ a, Memory.read base m a = Memory.read base m' a) : m = m' := by
  rw [wf_iff] at hm hm'
  induction m generalizing m' with
  | nil =>
    cases m' with
    | nil => rfl
    | cons d rest' =>
      exact absurd (by simpa [Memory.read] using (h d.1).symm) (hm'.2 d (by simp)).2
  | cons c rest ih =>
    obtain ⟨hp, hall⟩ := hm
    obtain ⟨hc, hrest⟩ := List.pairwise_cons.mp hp
    cases m' with
    | nil => exact absurd (by simpa [Memory.read] using h c.1) (hall c (by simp)).2
    | cons d rest' =>
      obtain ⟨hp', hall'⟩ := hm'
      obtain ⟨hd, hrest'⟩ := List.pairwise_cons.mp hp'
      have hcd : c.1 = d.1 := by
        rcases Nat.lt_trichotomy c.1 d.1 with hlt | heq | hgt
        · have h1 : Memory.read base (d :: rest') c.1 = base c.1 := read_of_forall_lt fun e he => by
            rcases List.mem_cons.mp he with e1 | e1
            · exact e1 ▸ hlt
            · exact Nat.lt_trans hlt (hd e e1)
          have h2 := h c.1
          rw [h1] at h2
          exact absurd (by simpa [Memory.read] using h2) (hall c (by simp)).2
        · exact heq
        · have h1 : Memory.read base (c :: rest) d.1 = base d.1 := read_of_forall_lt fun e he => by
            rcases List.mem_cons.mp he with e1 | e1
            · exact e1 ▸ hgt
            · exact Nat.lt_trans hgt (hc e e1)
          have h2 := h d.1
          rw [h1] at h2
          exact absurd (by simpa [Memory.read] using h2.symm) (hall' d (by simp)).2
      have hval : c.2 = d.2 := by
        have h2 := h c.1
        simpa [Memory.read, hcd] using h2
      have hhead : c = d := Prod.ext hcd hval
      subst hhead
      refine congrArg (c :: ·) (ih ⟨hrest, fun e he => hall e (by simp [he])⟩
        ⟨hrest', fun e he => hall' e (by simp [he])⟩ fun a => ?_)
      by_cases ha : c.1 = a
      · rw [read_of_forall_lt fun e he => ha ▸ hc e he, read_of_forall_lt fun e he => ha ▸ hd e he]
      · simpa [Memory.read, ha] using h a

end Sys2Proof.Machine
end

