-- ==== Sys2Proof/Laws/Ops.lean ====
section
/-! SUPPORT. What each shared operation can do, said once: sequencing, `MemRead`, `MemWrite`, ADEC, the pixel write, `SendPage`
and the page loop. -/

namespace Sys2Proof.Machine

section Sequencing

variable {α β : Type}

@[simp] theorem andThen_next (a : α) (k : α → Result β) : andThen (.next a) k = k a := rfl
@[simp] theorem andThen_fault (r : Fault) (k : α → Result β) : andThen (.fault r) k = .fault r := rfl
@[simp] theorem andThen_refused (r : Refusal) (k : α → Result β) : andThen (.refused r) k = .refused r := rfl

/-- A sequence answers a value only through a value of its first part. -/
theorem andThen_eq_next {o : Result α} {k : α → Result β} {b : β} :
    andThen o k = .next b ↔ ∃ a, o = .next a ∧ k a = .next b := by
  cases o <;> simp

/-- A sequence faults in its first part or in its second. -/
theorem andThen_eq_fault {o : Result α} {k : α → Result β} {r : Fault} :
    andThen o k = .fault r ↔ o = .fault r ∨ ∃ a, o = .next a ∧ k a = .fault r := by
  cases o <;> simp

end Sequencing

variable {s : State}

@[simp] theorem fbBytes_length (a n : Nat) : (fbBytes s a n).length = n := by simp [fbBytes]

@[simp] theorem pageCols_length (p : Nat) : (pageCols s p).length = s.cfg.w := by simp [pageCols]

theorem fbBytes_getElem {a n k : Nat} (h : k < (fbBytes s a n).length) : (fbBytes s a n)[k] = fbByte s (a + k) := by
  simp [fbBytes]

theorem fbBytes_congr {t : State} (h : ∀ a, fbByte t a = fbByte s a) (a n : Nat) : fbBytes t a n = fbBytes s a n := by
  simp [fbBytes, h]

theorem pageCols_congr {t : State} (hc : t.cfg = s.cfg) (h : ∀ a, fbByte t a = fbByte s a) (p : Nat) :
    pageCols t p = pageCols s p := by
  simp [pageCols, hc, fbBytes_congr h]

theorem fbByte_eq (a : Nat) : fbByte s a = Memory.read s.fbBase s.fb a := rfl

@[simp] theorem fbByte_setFb (m : Memory) (a : Nat) : fbByte (setFb m s) a = Memory.read s.fbBase m a := rfl

/-- After CLEAR's write every byte is the off byte (R89). -/
@[simp] theorem fbByte_clearFb (a : Nat) : fbByte (clearFb s) a = 0x00#8 := by
  simp [fbByte, Memory.read, State.fbBase]

theorem memRead_of_le {a n : Nat} (h : a + n ≤ s.cfg.n) : memRead a n s = .next (fbBytes s a n) := if_pos h

theorem memReadByte_of_le {a : Nat} (h : a + 1 ≤ s.cfg.n) : memReadByte a s = .next (fbByte s a) := if_pos h

theorem memWrite_of_le {a : Nat} {v : List Byte} (h : a + v.length ≤ s.cfg.n) :
    memWrite a v s = .next (setFb (Memory.writeAll s.fbBase a v s.fb) s) := if_pos h

/-- `MemWrite` answers only inside the buffer, and changes the framebuffer alone. -/
theorem memWrite_eq_next {a : Nat} {v : List Byte} {t : State} :
    memWrite a v s = .next t ↔ a + v.length ≤ s.cfg.n ∧ t = setFb (Memory.writeAll s.fbBase a v s.fb) s := by
  unfold memWrite
  split <;> simp_all [eq_comm]

@[simp] theorem fbByte_write_one (a a' : Nat) (b : Byte) :
    fbByte (setFb (Memory.writeAll s.fbBase a [b] s.fb) s) a' = if a' = a then b else fbByte s a' := by
  simp [Memory.writeAll, read_write, fbByte_eq]

/-- ADEC in range (R84). -/
theorem adec_of_lt {c : Config} {x y : Coord} (hx : x.toNat < c.w) (hy : y.toNat < c.h) :
    adec c x y = some (y.toNat / 8 * c.w + x.toNat + 1, BitVec.ofNat 3 (y.toNat % 8)) := if_pos ⟨hx, hy⟩

/-- ADEC out of range (R84). -/
theorem adec_eq_none {c : Config} {x y : Coord} : adec c x y = none ↔ ¬ (x.toNat < c.w ∧ y.toNat < c.h) := by
  unfold adec
  split <;> simp_all

/-- What ADEC leaves in the working registers for an in-range pixel. -/
theorem latchAdec_of_some {x y : Coord} {idx : Nat} {bit : BitVec 3} (h : adec s.cfg x y = some (idx, bit)) :
    latchAdec x y s = { s with regs := { s.regs with inr := true, idx := idx, bit := bit } } := by
  unfold latchAdec
  rw [h]

/-- What ADEC leaves in the working registers out of range. -/
theorem latchAdec_of_none {x y : Coord} (h : adec s.cfg x y = none) :
    latchAdec x y s =
      { s with
        regs := { s.regs with
          inr := false
          idx := (Config.freeRegs s.fresh).idx
          bit := (Config.freeRegs s.fresh).bit }
        fresh := s.fresh + 1 } := by
  unfold latchAdec
  rw [h]

/-- The pixel write inside the buffer. -/
theorem writePixel_of_le {v : Bool} (h : s.regs.idx + 1 ≤ s.cfg.n) :
    writePixel v s =
      .next (setFb (Memory.writeAll s.fbBase s.regs.idx [withBit (fbByte s s.regs.idx) s.regs.bit v] s.fb) s) := by
  simp [writePixel, memReadByte_of_le h, memWrite_of_le (v := [_]) h]

/-- The span of a page lies inside the buffer (R41). -/
theorem span_le {c : Config} {p : Nat} (h : p < c.np) : p * c.w + c.w + 1 ≤ c.n := by
  have : (p + 1) * c.w ≤ c.np * c.w := Nat.mul_le_mul_right _ h
  simp only [Config.n, Nat.mul_comm c.w]
  rw [Nat.add_mul] at this
  omega

/-- `SendPage` inside the buffer (R100, R102): it sends `DATA_TAG` and the page's column bytes, leaves the old tag slot in
`SAVED`, and leaves every byte of `FB`, and a canonical list, as they were. -/
theorem sendPage_of_lt {p : Nat} (h : p < s.cfg.np) :
    ∃ m, sendPage p s =
        .next (setFb m (busSend (dataFrame (pageCols s p)) (saveSlot (fbByte s (p * s.cfg.w)) s))) ∧
      (∀ a, Memory.read s.fbBase m a = fbByte s a) ∧
      (Memory.wf s.fbBase s.cfg.n s.fb = true → m = s.fb) := by
  have hs := span_le h
  have h1 : p * s.cfg.w + 1 ≤ s.cfg.n := by omega
  refine ⟨Memory.write s.fbBase (p * s.cfg.w) (fbByte s (p * s.cfg.w))
    (Memory.write s.fbBase (p * s.cfg.w) Config.dataTag s.fb), ?_, ?_, ?_⟩
  · simp only [sendPage, tagSlot]
    rw [memReadByte_of_le h1, andThen_next,
      memWrite_of_le (v := [_]) (by simpa using h1), andThen_next,
      memRead_of_le (by simp only [setFb_cfg, saveSlot_cfg]; omega), andThen_next,
      memWrite_of_le (v := [_]) (by simpa using h1)]
    have hspan : fbBytes (setFb (Memory.writeAll (saveSlot (fbByte s (p * s.cfg.w)) s).fbBase (p * s.cfg.w)
          [Config.dataTag] (saveSlot (fbByte s (p * s.cfg.w)) s).fb) (saveSlot (fbByte s (p * s.cfg.w)) s))
          (p * s.cfg.w) (s.cfg.w + 1) = dataFrame (pageCols s p) := by
      unfold fbBytes
      rw [List.range_succ_eq_map]
      simp only [List.map_cons, List.map_map, dataFrame, pageCols, fbBytes]
      refine congrArg₂ List.cons ?_ (List.map_congr_left fun k _ => ?_)
      · rw [fbByte_write_one]; simp
      · rw [Function.comp_apply, fbByte_write_one, if_neg (by omega)]
        simp only [saveSlot_fbByte, Nat.succ_eq_add_one]
        congr 1
        omega
    rw [hspan]
    rfl
  · intro a
    by_cases ha : a = p * s.cfg.w
    · rw [ha, read_write_same]
    · rw [read_write_other _ _ ha, read_write_other _ _ ha]
      rfl
  · intro hwf
    refine eq_of_read_eq (wf_write (by omega) (wf_write (by omega) hwf)) hwf fun a => ?_
    by_cases ha : a = p * s.cfg.w
    · rw [ha, read_write_same]
      rfl
    · rw [read_write_other _ _ ha, read_write_other _ _ ha]

/-- The two events of a page (R103). -/
def pageEvents (s : State) (p : Nat) : List Event :=
  [{ addr := s.cfg.devAddr, bytes := cmdFrame (BitVec.ofNat 8 p) },
   { addr := s.cfg.devAddr, bytes := dataFrame (pageCols s p) }]

/-- The page loop over pages of the surface: the events of each page in order; the framebuffer as it was; of the other fields
only `SEQ.P`, `SEQ.PH` and `SAVED` move. -/
theorem sendPages_of_lt (pages : List Nat) (h : ∀ p ∈ pages, p < s.cfg.np) :
    ∃ t, sendPages pages s = .next t ∧ t.bus = s.bus ++ pages.flatMap (pageEvents s) ∧
      (∀ a, fbByte t a = fbByte s a) ∧ (Memory.wf s.fbBase s.cfg.n s.fb = true → t.fb = s.fb) ∧
      t = { s with
        fb := t.fb
        bus := t.bus
        seq := { s.seq with p := t.seq.p, ph := t.seq.ph }
        regs := { s.regs with saved := t.regs.saved } } := by
  induction pages generalizing s with
  | nil => exact ⟨s, rfl, by simp, fun _ => rfl, fun _ => rfl, rfl⟩
  | cons p rest ih =>
    obtain ⟨m, hm, hread, hwf⟩ := sendPage_of_lt (s := moveTo p .data (sendCmdFrame p (moveTo p .cmd s)))
      (p := p) (h p (by simp))
    generalize hs1 : setFb m _ = s1 at hm
    have hcfg : s1.cfg = s.cfg := by rw [← hs1]; simp
    have hbyte : ∀ a, fbByte s1 a = fbByte s a := fun a => by rw [← hs1]; simpa using hread a
    have hbase : s1.fbBase = s.fbBase := by rw [← hs1]; simp
    have hbus : s1.bus = s.bus ++ pageEvents s p := by
      rw [← hs1]; simp [pageEvents, pageCols, fbBytes]
    have hfb : Memory.wf s.fbBase s.cfg.n s.fb = true → s1.fb = s.fb := fun hw => by
      rw [← hs1]; simpa using hwf (by simpa using hw)
    obtain ⟨t, ht, htbus, htbyte, htwf, htrec⟩ := ih (s := s1) fun q hq => by rw [hcfg]; exact h q (by simp [hq])
    refine ⟨t, ?_, ?_, fun a => (htbyte a).trans (hbyte a), fun hw => ?_, ?_⟩
    · simp only [sendPages]
      rw [hm, andThen_next, ht]
    · have hev : rest.flatMap (pageEvents s1) = rest.flatMap (pageEvents s) := by
        refine congrArg (List.flatMap · rest) (funext fun q => ?_)
        simp only [pageEvents, hcfg, pageCols_congr hcfg hbyte]
      rw [htbus, hbus, hev, List.flatMap_cons, List.append_assoc]
    · have := hfb hw
      rw [htwf (by rw [hbase, hcfg, this]; exact hw), this]
    · subst hs1
      refine htrec.trans ?_
      simp

end Sys2Proof.Machine
end

