-- ==== Sys2Proof/Laws/Decode.lean ====
section
/-! SUPPORT. The fields of a command word, each read back from the word R66 composes, and the word composed again from its
fields; the page-select pattern. -/

namespace Sys2Proof

@[simp] theorem cmdOpc_commandWord (opc : BitVec 4) (v : Bool) (y x : Coord) :
    cmdOpc (commandWord opc v y x) = opc := by
  ext i hi
  simp only [cmdOpc, commandWord, BitVec.getElem_extractLsb', BitVec.getLsbD_append]
  rw [if_neg (by omega), if_neg (by omega), if_neg (by omega), if_neg (by omega),
    ← BitVec.getLsbD_eq_getElem]
  congr 1
  omega

@[simp] theorem cmdX_commandWord (opc : BitVec 4) (v : Bool) (y x : Coord) : cmdX (commandWord opc v y x) = x := by
  ext i hi
  simp only [cmdX, commandWord, BitVec.getElem_extractLsb', BitVec.getLsbD_append]
  rw [if_pos (by omega), ← BitVec.getLsbD_eq_getElem]
  congr 1
  omega

@[simp] theorem cmdY_commandWord (opc : BitVec 4) (v : Bool) (y x : Coord) : cmdY (commandWord opc v y x) = y := by
  ext i hi
  simp only [cmdY, commandWord, BitVec.getElem_extractLsb', BitVec.getLsbD_append]
  rw [if_neg (by omega), if_pos (by omega), ← BitVec.getLsbD_eq_getElem]
  congr 1
  omega

@[simp] theorem cmdV_commandWord (opc : BitVec 4) (v : Bool) (y x : Coord) : cmdV (commandWord opc v y x) = v := by
  unfold cmdV commandWord
  rw [BitVec.getLsbD_append, if_neg (by omega), BitVec.getLsbD_append, if_neg (by omega), BitVec.getLsbD_append,
    if_pos (by omega)]
  simp

/-- The reserved field of a composed word is 0 (R66). -/
@[simp] theorem rsv_commandWord (opc : BitVec 4) (v : Bool) (y x : Coord) :
    (commandWord opc v y x).extractLsb' 17 11 = 0#11 := by
  ext i hi
  simp only [commandWord, BitVec.getElem_extractLsb', BitVec.getLsbD_append]
  rw [if_neg (by omega), if_neg (by omega), if_neg (by omega), if_pos (by omega)]
  simp

/-- Without `v` the bits 27:16 are 0 (R72). -/
@[simp] theorem rsvV_commandWord (opc : BitVec 4) (y x : Coord) :
    (commandWord opc false y x).extractLsb' 16 12 = 0#12 := by
  ext i hi
  simp only [commandWord, BitVec.getElem_extractLsb', BitVec.getLsbD_append]
  rw [if_neg (by omega), if_neg (by omega)]
  split
  · simp
  · rw [if_pos (by omega)]
    simp

/-- Without operands the bits 27:0 are 0 (R72). -/
@[simp] theorem low_commandWord (opc : BitVec 4) :
    (commandWord opc false 0#8 0#8).extractLsb' 0 28 = 0#28 := by
  ext i hi
  simp only [commandWord, BitVec.getElem_extractLsb', BitVec.getLsbD_append]
  split
  · simp
  · split
    · simp
    · split
      · simp
      · rw [if_pos (by omega)]
        simp

/-- A word is its fields composed again, where its reserved field is 0 (R66). -/
theorem commandWord_of_fields {w : Word} (h : w.extractLsb' 17 11 = 0#11) :
    commandWord (cmdOpc w) (cmdV w) (cmdY w) (cmdX w) = w := by
  ext i hi
  simp only [commandWord, ← BitVec.getLsbD_eq_getElem, BitVec.getLsbD_append, cmdOpc, cmdX, cmdY, cmdV]
  have hr : ∀ j, j < 11 → w.getLsbD (17 + j) = false := fun j hj => by
    have := congrArg (fun b => b.getLsbD j) h
    simpa [hj] using this
  split
  · simp_all
  · split
    · simp only [BitVec.getLsbD_extractLsb']
      rw [decide_eq_true (by omega), Bool.true_and]
      congr 1
      omega
    · split
      · have : i = 16 := by omega
        simp [this]
      · split
        · have := hr (i - 8 - 8 - 1) (by omega)
          rw [show 17 + (i - 8 - 8 - 1) = i by omega] at this
          simp [this]
        · simp only [BitVec.getLsbD_extractLsb']
          rw [decide_eq_true (by omega), Bool.true_and]
          congr 1
          omega

/-- The page-select frame of a page up to 79 is read back (R64). -/
theorem pageSelected_cmdFrame {p : Byte} (h : p.toNat < 80) : pageSelected (cmdFrame p) = some p := by
  have hle : Config.pageBase ≤ pageSelectByte p := by
    rw [BitVec.le_def]
    simp [pageSelectByte, Config.pageBase, BitVec.toNat_add]
    omega
  have hsub : pageSelectByte p - Config.pageBase = p := by
    simp [pageSelectByte, BitVec.add_comm Config.pageBase p]
  simp [pageSelected, cmdFrame, hle, hsub]

/-- A frame in which `0x7F` occurs is no page select. -/
theorem pageSelected_of_mem {bytes : List Byte} (h : 0x7F#8 ∈ bytes) : pageSelected bytes = none := by
  unfold pageSelected
  split
  · next t b lo hi =>
    refine if_neg fun ⟨ht, hlo, hhi, hb⟩ => ?_
    simp only [List.mem_cons, List.not_mem_nil, or_false] at h
    rcases h with h | h | h | h
    · rw [ht] at h; exact absurd h (by decide)
    · rw [← h] at hb; exact absurd hb (by decide)
    · rw [hlo] at h; exact absurd h (by decide)
    · rw [hhi] at h; exact absurd h (by decide)
  · rfl

end Sys2Proof
end

