-- ==== Sys2Proof/Laws/Step.lean ====
section
/-! SUPPORT. What one step can do, said once; what the decoder can answer; and SETPIX in range and out of range. -/

namespace Sys2Proof.Machine

variable {s t : State}

/-- Every way a step answers a next state: the block idles, the reset pin is taken, an offered command runs, or the operation
in progress goes on. -/
theorem step_next (h : step s = .next t) :
    s.cfg.geometryLegal = true ∧
      ((s.busy = false ∧ s.host = [] ∧ t = sampleTx s) ∨
        (∃ rest, s.busy = false ∧ s.host = .resetPin :: rest ∧ t = assertReset rest (sampleTx s)) ∨
        (∃ o rest i, s.busy = false ∧ s.host = .offer o :: rest ∧ decode s.cfg (.cmd o.cmd) = .ok i ∧
          exec i (takeOffer o rest (sampleTx s)) = .next t) ∨
        (s.busy = true ∧ resumeOperation (sampleTx s) = .next t)) := by
  unfold step stepPorts at h
  split at h
  · next hg =>
    refine ⟨hg, ?_⟩
    split at h
    · next hb =>
      have hb' : s.busy = false := by simpa [cmdReady] using hb
      unfold acceptCommand at h
      rw [sampleTx_host, sampleTx_cfg] at h
      split at h
      · next hh => exact .inl ⟨hb', hh, by simpa using h.symm⟩
      · next rest hh => exact .inr (.inl ⟨rest, hb', hh, by simpa using h.symm⟩)
      · next o rest hh =>
        split at h
        · next i hd => exact .inr (.inr (.inl ⟨o, rest, i, hb', hh, hd, h⟩))
        · cases h
    · next hb => exact .inr (.inr (.inr ⟨by simpa [cmdReady] using hb, h⟩))
  · cases h

/-- Every way a step faults: inside an offered command, or inside the operation in progress. -/
theorem step_fault {r : Fault} (h : step s = .fault r) :
    (∃ o rest i, s.busy = false ∧ decode s.cfg (.cmd o.cmd) = .ok i ∧
        exec i (takeOffer o rest (sampleTx s)) = .fault r) ∨
      (s.busy = true ∧ resumeOperation (sampleTx s) = .fault r) := by
  unfold step stepPorts at h
  split at h
  · split at h
    · next hb =>
      have hb' : s.busy = false := by simpa [cmdReady] using hb
      unfold acceptCommand at h
      rw [sampleTx_host, sampleTx_cfg] at h
      split at h
      · cases h
      · cases h
      · next o rest hh =>
        split at h
        · next i hd => exact .inl ⟨o, rest, i, hb', hd, h⟩
        · cases h
    · next hb => exact .inr ⟨by simpa [cmdReady] using hb, h⟩
  · cases h

/-- A command word is never read as one of the three frames. -/
theorem decodeCmd_command {w : Word} {i : Instr} (h : decodeCmd w = .ok i) :
    i = .clear ∨ (∃ x y v, i = .setpix x y v) ∨ i = .refresh ∨ i = .init ∨ i = .caload ∨ i = .caseed ∨ i = .advance ∨
      ∃ x y, i = .rdcell x y := by
  simp only [decodeCmd, decodePlain] at h
  split at h
  · split at h <;> simp_all
  split at h
  · split at h
    · cases h; exact .inr (.inl ⟨_, _, _, rfl⟩)
    · cases h
  split at h
  · split at h <;> simp_all
  split at h
  · split at h <;> simp_all
  split at h
  · split at h <;> simp_all
  split at h
  · split at h <;> simp_all
  split at h
  · split at h <;> simp_all
  split at h
  · split at h
    · cases h; exact .inr (.inr (.inr (.inr (.inr (.inr (.inr ⟨_, _, rfl⟩))))))
    · cases h
  · cases h

/-- SETPIX on a pixel ADEC places inside the buffer (R90): one byte is written, the one at the index ADEC gives. -/
theorem execSetpix_of_some {x y : Coord} {v : Bool} {idx : Nat} {bit : BitVec 3} (h : adec s.cfg x y = some (idx, bit))
    (hn : idx + 1 ≤ s.cfg.n) :
    execSetpix x y v s = .next
      { s with
        fb := Memory.writeAll s.fbBase idx [withBit (fbByte s idx) bit v] s.fb
        busy := false
        seq := { s.seq with op := .idle }
        regs := { s.regs with x := x, y := y, v := v, inr := true, idx := idx, bit := bit } } := by
  unfold execSetpix
  rw [latchAdec_of_some (s := latchV v (latchXY x y (accept .setpix s))) h]
  simp only [if_true]
  rw [writePixel_of_le (by exact hn)]
  rfl

/-- SETPIX out of range (R90, R144): nothing but the latched operands and ADEC's registers. -/
theorem execSetpix_of_none {x y : Coord} {v : Bool} (h : adec s.cfg x y = none) :
    execSetpix x y v s = .next
      { s with
        busy := false
        seq := { s.seq with op := .idle }
        regs := { s.regs with
          x := x
          y := y
          v := v
          inr := false
          idx := (Config.freeRegs s.fresh).idx
          bit := (Config.freeRegs s.fresh).bit }
        fresh := s.fresh + 1 } := by
  unfold execSetpix
  rw [latchAdec_of_none (s := latchV v (latchXY x y (accept .setpix s))) h]
  rfl

/-- In an admitted geometry every index ADEC gives is inside the buffer (R86). -/
theorem adec_le {c : Config} {x y : Coord} {idx : Nat} {bit : BitVec 3} (hc : c.geometryLegal = true)
    (h : adec c x y = some (idx, bit)) : 1 ≤ idx ∧ idx + 1 ≤ c.n := by
  unfold adec at h
  split at h
  · next hr =>
    cases h
    simp only [Config.geometryLegal, Bool.and_eq_true, decide_eq_true_eq] at hc
    have hp : y.toNat / 8 < c.np := by simp only [Config.np]; omega
    have := span_le hp
    omega
  · cases h

end Sys2Proof.Machine
end

