-- ==== Sys2Proof/Laws/Serializer.lean ====
section
/-! SUPPORT. Inversion of the page serializer: whatever `SendPage`, the page loop, REFRESH, INIT, a frame and `afterFrame`
answer, said once, with no premise on the state; and the arithmetic of an admitted geometry and of the pixel mask. -/

namespace Sys2Proof.Machine

variable {s t : State}

/-- The bounds of R7, unpacked. -/
theorem geometry_facts {c : Config} (hc : c.geometryLegal = true) :
    1 ≤ c.w ∧ c.w ≤ 256 ∧ 1 ≤ c.h ∧ c.h ≤ 256 ∧ c.np * 8 = c.h ∧ 1 ≤ c.np ∧ c.np ≤ 80 ∧
      1 ≤ c.gw ∧ c.gw ≤ 256 ∧ 1 ≤ c.gh ∧ c.gh ≤ 256 := by
  simp only [Config.geometryLegal, Bool.and_eq_true, decide_eq_true_eq] at hc
  have : c.np * 8 = c.h := by simp only [Config.np]; omega
  omega

/-- The byte SETPIX writes back, bit by bit (R90): the bit named is the value, the others are the old ones. -/
theorem withBit_getLsbD (old : Byte) (bit : BitVec 3) (v : Bool) {k : Nat} (hk : k < 8) :
    (withBit old bit v).getLsbD k = if k = bit.toNat then v else old.getLsbD k := by
  have mask : ∀ k < 8, ∀ bit : BitVec 3, (bitMask bit).getLsbD k = decide (k = bit.toNat) := by decide
  have hm := mask k hk bit
  cases v
  · rw [withBit, if_neg Bool.false_ne_true, BitVec.getLsbD_and, BitVec.getLsbD_not, hm]
    by_cases e : k = bit.toNat <;> simp [hk, e]
  · rw [withBit, if_pos rfl, BitVec.getLsbD_or, hm]
    by_cases e : k = bit.toNat <;> simp [e]

/-- What `SendPage` answers (R100, R102): one more event, from `DATA_TAG` on; the framebuffer as it was. -/
theorem sendPage_next {p : Nat} (h : sendPage p s = .next t) :
    ∃ m bytes, t = setFb m (busSend bytes (saveSlot (fbByte s (p * s.cfg.w)) s)) ∧ bytes ≠ [] ∧
      (∀ a, Memory.read s.fbBase m a = fbByte s a) ∧
      (Memory.wf s.fbBase s.cfg.n s.fb = true → Memory.wf s.fbBase s.cfg.n m = true) := by
  simp only [sendPage, andThen_eq_next] at h
  obtain ⟨b, h1, s1, h2, span, h3, h4⟩ := h
  obtain ⟨hle, e2⟩ := memWrite_eq_next.mp h2
  obtain ⟨_, e4⟩ := memWrite_eq_next.mp h4
  subst e2
  have hb : b = fbByte s (p * s.cfg.w) := by
    unfold memReadByte at h1
    split at h1
    · simpa [tagSlot] using h1.symm
    · cases h1
  have hspan : span ≠ [] := by
    unfold memRead at h3
    split at h3
    · cases h3
      exact List.ne_nil_of_length_pos (by simp)
    · cases h3
  refine ⟨Memory.write s.fbBase (p * s.cfg.w) (fbByte s (p * s.cfg.w))
    (Memory.write s.fbBase (p * s.cfg.w) Config.dataTag s.fb), span, ?_, hspan, ?_, ?_⟩
  · rw [e4, hb]
    rfl
  · intro a
    by_cases ha : a = p * s.cfg.w
    · rw [ha, read_write_same]
    · rw [read_write_other _ _ ha, read_write_other _ _ ha]
      rfl
  · intro hw
    have hl : p * s.cfg.w < s.cfg.n := by simpa [tagSlot] using hle
    exact wf_write hl (wf_write hl hw)

/-- What the display operations that send frames may change, and how: the frames sent, `SEQ.P`, `SEQ.PH`, `SAVED`; the
framebuffer byte for byte as it was. -/
structure Sent (s t : State) : Prop where
  bus : ∃ new, t.bus = s.bus ++ new ∧ ∀ e ∈ new, e.addr = s.cfg.devAddr ∧ (e.bytes ≠ [] ∨ s.cfg.initFrame = [])
  byte : ∀ a, fbByte t a = fbByte s a
  wf : Memory.wf s.fbBase s.cfg.n s.fb = true → Memory.wf s.fbBase s.cfg.n t.fb = true
  record : t = { s with
    fb := t.fb
    bus := t.bus
    seq := { s.seq with p := t.seq.p, ph := t.seq.ph }
    regs := { s.regs with saved := t.regs.saved } }

theorem Sent.cfg (h : Sent s t) : t.cfg = s.cfg := by rw [h.record]
theorem Sent.fbBase (h : Sent s t) : t.fbBase = s.fbBase := by rw [h.record]; rfl
theorem Sent.op (h : Sent s t) : t.seq.op = s.seq.op := by rw [h.record]
theorem Sent.busy (h : Sent s t) : t.busy = s.busy := by rw [h.record]
theorem Sent.cur (h : Sent s t) : t.cur = s.cur := by rw [h.record]
theorem Sent.nxt (h : Sent s t) : t.nxt = s.nxt := by rw [h.record]
theorem Sent.rdData (h : Sent s t) : t.rdData = s.rdData := by rw [h.record]
theorem Sent.fbValid (h : Sent s t) : t.fbValid = s.fbValid := by rw [h.record]
theorem Sent.caValid (h : Sent s t) : t.caValid = s.caValid := by rw [h.record]

theorem Sent.refl (s : State) : Sent s s := ⟨⟨[], by simp⟩, fun _ => rfl, id, rfl⟩

theorem Sent.trans {u : State} (h : Sent s t) (h' : Sent t u) : Sent s u := by
  obtain ⟨n1, b1, a1⟩ := h.bus
  obtain ⟨n2, b2, a2⟩ := h'.bus
  refine ⟨⟨n1 ++ n2, by rw [b2, b1, List.append_assoc], fun e he => ?_⟩,
    fun a => (h'.byte a).trans (h.byte a), fun hw => ?_, ?_⟩
  · rcases List.mem_append.mp he with h1 | h1
    · exact a1 e h1
    · rw [← h.cfg]; exact a2 e h1
  · have := h'.wf
    rw [h.fbBase, h.cfg] at this
    exact this (h.wf hw)
  · rw [h'.record, h.record]

theorem sent_moveTo (p : Nat) (ph : Phase) : Sent s (moveTo p ph s) := ⟨⟨[], by simp⟩, fun _ => rfl, id, rfl⟩

theorem sent_busSend {bytes : List Byte} (h : bytes ≠ [] ∨ s.cfg.initFrame = []) : Sent s (busSend bytes s) :=
  ⟨⟨[⟨s.cfg.devAddr, bytes⟩], rfl, by simpa using h⟩, fun _ => rfl, id, rfl⟩

theorem sent_sendPage {p : Nat} (h : sendPage p s = .next t) : Sent s t := by
  obtain ⟨m, bytes, e, hne, hb, hw⟩ := sendPage_next h
  subst e
  exact ⟨⟨[⟨s.cfg.devAddr, bytes⟩], rfl, by simpa using .inl hne⟩, hb, hw, rfl⟩

/-- The page loop only sends. -/
theorem sent_sendPages {pages : List Nat} (h : sendPages pages s = .next t) : Sent s t := by
  induction pages generalizing s with
  | nil => cases h; exact .refl _
  | cons p rest ih =>
    obtain ⟨s1, h1, h2⟩ := andThen_eq_next.mp h
    refine ((((sent_moveTo p .cmd).trans (sent_busSend (.inl ?_))).trans (sent_moveTo p .data)).trans
      (sent_sendPage h1)).trans (ih h2)
    simp [cmdFrame]

/-- A frame at the sequencer's position only sends. -/
theorem sent_frameAtPosition (h : frameAtPosition s = .next t) : Sent s t := by
  have hi : s.cfg.initFrame ≠ [] ∨ s.cfg.initFrame = [] := (eq_or_ne s.cfg.initFrame []).symm
  unfold frameAtPosition at h
  split at h
  · cases h
    split
    · exact sent_busSend hi
    · exact .refl s
  · cases h
    split
    · exact sent_busSend (.inl (by simp [cmdFrame]))
    · exact .refl s
  · simp only [execFrameData] at h
    split at h
    · exact sent_sendPage h
    · cases h; exact .refl s

/-- REFRESH with the transport ready: it sends, and finishes. -/
theorem execRefresh_next (hr : s.txReady = true) (h : execRefresh s = .next t) :
    ∃ u, Sent (accept .refresh s) u ∧ t = finish u := by
  rw [execRefresh, if_pos hr] at h
  obtain ⟨u, h1, h2⟩ := andThen_eq_next.mp h
  exact ⟨u, sent_sendPages h1, by simpa using h2.symm⟩

/-- INIT with the transport ready: it sends the initialization frame, clears, sends, and finishes. -/
theorem execInit_next (hr : s.txReady = true) (h : execInit s = .next t) :
    ∃ u, Sent (clearFb (busSend s.cfg.initFrame (accept .init s))) u ∧ t = finish u := by
  rw [execInit, if_pos hr] at h
  obtain ⟨u, h1, h2⟩ := andThen_eq_next.mp h
  exact ⟨u, sent_sendPages h1, by simpa using h2.symm⟩

/-- Every REFRESH with the transport ready answers. -/
theorem execRefresh_answers (hr : s.txReady = true) : ∃ t, execRefresh s = .next t := by
  obtain ⟨t, ht, _⟩ := sendPages_of_lt (s := accept .refresh s) (allPages s.cfg) (by simp [allPages])
  exact ⟨finish t, by rw [execRefresh, if_pos hr, ht]; rfl⟩

/-- Every INIT with the transport ready answers. -/
theorem execInit_answers (hr : s.txReady = true) : ∃ t, execInit s = .next t := by
  obtain ⟨t, ht, _⟩ := sendPages_of_lt (s := clearFb (busSend s.cfg.initFrame (accept .init s))) (allPages s.cfg)
    (by simp [allPages])
  exact ⟨finish t, by rw [execInit, if_pos hr, ht]; rfl⟩

end Sys2Proof.Machine
end

