-- ==== Sys2Proof/Laws/Compose.lean ====
section
/-! SUPPORT. The host's side of the command port: the transport's plan of levels, the wait for `BUSY` to fall, a word offered
to an idle block, a held operation's step, and the byte offered on TX. -/

namespace Sys2Proof.Machine

variable {s t : State}

/-- Taking a level from the plan leaves the level it ends at. -/
@[simp] theorem txEndsReady_sampleTx : txEndsReady (sampleTx s) = txEndsReady s := by
  unfold sampleTx
  split
  · rfl
  · next b rest h =>
    cases rest <;> simp [txEndsReady, h, List.getLast?_cons]

@[simp] theorem sampleTx_txPlan : (sampleTx s).txPlan = s.txPlan.tail := by
  unfold sampleTx
  split <;> simp_all

theorem sampleTx_of_nil (h : s.txPlan = []) : sampleTx s = s := by
  unfold sampleTx
  rw [h]

/-- With no level planned the present one is the last. -/
theorem txReady_of_endsReady (h : txEndsReady s = true) (hp : s.txPlan = []) : s.txReady = true := by
  simpa [txEndsReady, hp] using h

/-- The host does not wait for an idle block. -/
@[simp] theorem waitIdle_of_idle (n : Nat) (h : s.busy = false) : waitIdle n s = .next s := by
  cases n <;> simp [waitIdle, h]

@[simp] theorem awaitIdle_of_idle (h : s.busy = false) : awaitIdle s = .next s := waitIdle_of_idle _ h

/-- A block whose step changes nothing is waited for in vain. -/
theorem waitIdle_of_stuck (n : Nat) (h : step s = .next s) : waitIdle n s = .next s := by
  induction n with
  | zero => rfl
  | succ n ih =>
    simp only [waitIdle]
    split
    · rw [h]; exact ih
    · rfl

/-- A word on the port of an idle block is the next step (R70). -/
theorem step_offerFirst {w : Word} {i : Instr} (hg : s.cfg.geometryLegal = true) (hb : s.busy = false)
    (hd : decodeCmd w = .ok i) : step (offerFirst w s) = exec i (sampleTx s) := by
  have hs : takeOffer ⟨w, s.seedIn, s.gridIn⟩ s.host (sampleTx (offerFirst w s)) = sampleTx s := by
    unfold sampleTx
    simp only [offerFirst_txPlan]
    split <;> rfl
  unfold step stepPorts
  rw [offerFirst_cfg, if_pos hg, if_pos (by simp [cmdReady, hb])]
  simp only [acceptCommand, sampleTx_host, offerFirst_host, decode, hd]
  rw [hs]

/-- A command issued to an idle block runs, and the host waits for it (R18). -/
theorem issue_of_idle {w : Word} {i : Instr} (hg : s.cfg.geometryLegal = true) (hb : s.busy = false)
    (hd : decodeCmd w = .ok i) : issue w s = andThen (exec i (sampleTx s)) awaitIdle := by
  rw [issue, awaitIdle_of_idle hb, andThen_next, if_neg (by simp [hb]), step_offerFirst hg hb hd]

/-- The step of a held operation is its resumption. -/
theorem step_of_held (hg : s.cfg.geometryLegal = true) (hb : s.busy = true)
    (ho : s.seq.op = .refresh ∨ s.seq.op = .init) : step s = resumeFrames (sampleTx s) := by
  unfold step stepPorts
  rw [if_pos hg, if_neg (by simp [cmdReady, hb])]
  unfold resumeOperation
  rw [sampleTx_seq]
  rcases ho with h | h <;> rw [h]

/-- RDCELL's word decodes to it (R66, R68). -/
theorem decodeCmd_rdcell (x y : Coord) : decodeCmd (commandWord 0xB#4 false y x) = .ok (.rdcell x y) := by
  simp [decodeCmd]

/-- SETPIX's word decodes to it (R66, R68). -/
theorem decodeCmd_setpix (x y : Coord) (v : Bool) : decodeCmd (commandWord 0x2#4 v y x) = .ok (.setpix x y v) := by
  simp [decodeCmd]

/-- The frame that goes out while the transport is ready is the one whose bytes stand at the position (R25). -/
theorem frameAtPosition_of_ready (hr : s.txReady = true) (hp : s.seq.ph = .data → s.seq.p < s.cfg.np) :
    ∃ u, frameAtPosition s = .next u ∧ u.bus = s.bus ++ [⟨s.cfg.devAddr, frameBytes s⟩] ∧
      (∀ a, fbByte u a = fbByte s a) ∧
      u = { s with fb := u.fb, bus := u.bus, regs := { s.regs with saved := u.regs.saved } } := by
  cases hph : s.seq.ph with
  | initFrame =>
    exact ⟨busSend s.cfg.initFrame s, by simp [frameAtPosition, hph, execFrameInit, hr], by simp [frameBytes, hph],
      fun _ => rfl, rfl⟩
  | cmd =>
    exact ⟨busSend (cmdFrame (BitVec.ofNat 8 s.seq.p)) s, by simp [frameAtPosition, hph, execFramePagesel, hr],
      by simp [frameBytes, hph], fun _ => rfl, rfl⟩
  | data =>
    obtain ⟨m, hm, hread, _⟩ := sendPage_of_lt (hp hph)
    exact ⟨setFb m (busSend (dataFrame (pageCols s s.seq.p)) (saveSlot (fbByte s (s.seq.p * s.cfg.w)) s)),
      by simp only [frameAtPosition, hph, execFrameData, hr, if_true]; exact hm, by simp [frameBytes, hph], hread, rfl⟩

end Sys2Proof.Machine
end

