-- ==== Sys2Proof/Laws/PerInstr.lean ====
section
/-! SUPPORT. Statements for all instructions, one lemma per constructor.
`FieldsApart`: what the encoder puts on the command port keeps the field rules of R66, R68 and R72 (the reserved bits are 0,
bit 16 is 0 but for SETPIX, the coordinate fields are 0 but for SETPIX and RDCELL), and what it puts on the TX port is the
frame's bytes and no command. -/

namespace Sys2Proof.Laws.FieldsApart

/-- Which fields of its command word the instruction may use: the value bit, and the coordinates. -/
def usesFields : Instr → Bool × Bool
  | .clear => (false, false)
  | .setpix _ _ _ => (true, true)
  | .refresh => (false, false)
  | .init => (false, false)
  | .caload => (false, false)
  | .caseed => (false, false)
  | .advance => (false, false)
  | .rdcell _ _ => (false, true)
  | .framePagesel _ => (false, false)
  | .frameData => (false, false)
  | .frameInit => (false, false)

/-- Every word the encoder gives for the instruction keeps the field rules. -/
def Statement (i : Instr) : Prop :=
  ∀ (c : Config) (cols : List Byte) (w : Word), encode c cols i = .cmd w →
    w.extractLsb' 17 11 = 0#11 ∧ ((usesFields i).1 = false → cmdV w = false) ∧
      ((usesFields i).2 = false → cmdY w = 0#8 ∧ cmdX w = 0#8)

theorem clear : Statement .clear := by
  rintro c cols w h; cases h; simp

theorem setpix (x y : Coord) (v : Bool) : Statement (.setpix x y v) := by
  rintro c cols w h; cases h; simp [usesFields]

theorem refresh : Statement .refresh := by
  rintro c cols w h; cases h; simp

theorem init : Statement .init := by
  rintro c cols w h; cases h; simp

theorem caload : Statement .caload := by
  rintro c cols w h; cases h; simp

theorem caseed : Statement .caseed := by
  rintro c cols w h; cases h; simp

theorem advance : Statement .advance := by
  rintro c cols w h; cases h; simp

theorem rdcell (x y : Coord) : Statement (.rdcell x y) := by
  rintro c cols w h; cases h; simp [usesFields]

theorem framePagesel (p : Byte) : Statement (.framePagesel p) := by
  rintro c cols w h; cases h

theorem frameData : Statement .frameData := by
  rintro c cols w h; cases h

theorem frameInit : Statement .frameInit := by
  rintro c cols w h; cases h

end Sys2Proof.Laws.FieldsApart
end

