-- ==== Sys2Proof/Tests/Slice0.lean ====
section
/-! SUPPORT. The model's own tests. Expected values come from the spec: the tables of 95_test_vectors.md, the examples of the
operation rules, and words written out bit by bit from the encodings of 30_encoding.md. The theorems `witness_…` show, for each
obligation with hypotheses, a state and operands that meet them all. -/

namespace Sys2Proof.Tests

open Sys2Proof Sys2Proof.Machine Sys2Proof.Safety

/-! ## Helpers -/

/-- The outcome is a next state of which `p` holds. -/
def answers (o : Result State) (p : State → Bool) : Bool :=
  match o with
  | .next t => p t
  | .fault _ => false
  | .refused _ => false

/-- The outcome is a next state. -/
def isNext (o : Result State) : Bool := answers o fun _ => true

/-- The outcome is this refusal. -/
def isRefused (o : Result State) (r : Refusal) : Bool :=
  match o with
  | .next _ => false
  | .fault _ => false
  | .refused r' => r' == r

/-- A small build: `W = 8`, `H = 16`, `NP = 2`, `N = 17` (V-AD, V-PS 10), a 4 x 4 grid (P2). -/
def tiny : Config where
  w := 8
  h := 16
  gw := 4
  gh := 4
  devAddr := 0x3C#8
  initFrame := [0x00#8, 0x81#8, 0x7F#8]

/-- A build whose grid covers its surface, 8 x 8. -/
def square : Config := { tiny with h := 8, gw := 8, gh := 8 }

/-- The build at the upper bounds of R7. -/
def largest : Config := { tiny with w := 256, h := 256, gw := 256, gh := 256 }

/-- An idle block of the build, its framebuffer all zero and marked valid. -/
def blank (c : Config) : State :=
  { State.powerOn c 0 with
    fbValid := true
    caValid := true
    seq := { op := .idle, p := 0, ph := .cmd, cx := 0, cy := 0 }
    regs := { x := 0#8, y := 0#8, v := false, idx := 0, bit := 0#3, inr := false, saved := 0#8, ncnt := 0#3 }
    rdData := false
    seedIn := 0#32
    gridIn := 0 }

/-- The same with these written bytes. -/
def withBytes (c : Config) (m : Memory) : State := { blank c with fb := m }

/-- The same with this grid. -/
def withGrid (c : Config) (g : Grid) : State := { blank c with cur := g }

/-- The same with these things for the host to do. -/
def withHost (c : Config) (acts : List HostAct) : State := { blank c with host := acts }

/-- An offer of a word, its side-band ports at 0. -/
def offerOf (w : Word) : HostAct := .offer { cmd := w, seedIn := 0#32, gridIn := 0 }

/-- The serializer standing at a position of an operation in progress. -/
def held (op : SeqOp) (p : Nat) (ph : Phase) : State :=
  { blank tiny with busy := true, seq := { op := op, p := p, ph := ph, cx := 0, cy := 0 } }

/-- The source's glider (S7). -/
def glider : Grid :=
  [[false, true, false, false], [false, false, true, false], [true, true, true, false], [false, false, false, false]]

/-- The decoder's answer to a command word. -/
def decodesTo (w : Word) (i : Instr) : Prop := decode Config.default (.cmd w) = .ok i

/-! ## Well-formedness: an ill-formed term for each check -/

theorem test_wellFormed_pageBelowNP : Instr.wellFormed tiny (.framePagesel 2#8) = false := by decide
theorem test_wellFormed_lastPage : Instr.wellFormed tiny (.framePagesel 1#8) = true := by decide
theorem test_geometry_zeroWidth : Config.geometryLegal { tiny with w := 0 } = false := by decide
theorem test_geometry_widthNotMultiple : Config.geometryLegal { tiny with w := 12 } = false := by decide
theorem test_geometry_wideSurface : Config.geometryLegal { tiny with w := 264 } = false := by decide
theorem test_geometry_zeroHeight : Config.geometryLegal { tiny with h := 0 } = false := by decide
theorem test_geometry_heightNotMultiple : Config.geometryLegal { tiny with h := 20 } = false := by decide
theorem test_geometry_tallSurface : Config.geometryLegal { tiny with h := 648 } = false := by decide
theorem test_geometry_noColumns : Config.geometryLegal { tiny with gw := 0 } = false := by decide
theorem test_geometry_wideGrid : Config.geometryLegal { tiny with gw := 257 } = false := by decide
theorem test_geometry_noRows : Config.geometryLegal { tiny with gh := 0 } = false := by decide
theorem test_geometry_tallGrid : Config.geometryLegal { tiny with gh := 257 } = false := by decide
theorem test_geometry_bounds :
    Config.geometryLegal tiny = true ∧ Config.geometryLegal largest = true ∧
      Config.geometryLegal { tiny with w := 8, h := 8, gw := 1, gh := 1 } = true := by decide
theorem test_initFrame_noTag : Config.legal { tiny with initFrame := [0x40#8, 0x7F#8] } = false := by decide
theorem test_initFrame_noContrast : Config.legal { tiny with initFrame := [0x00#8, 0x81#8] } = false := by decide
theorem test_initFrame_empty : Config.legal { tiny with initFrame := [] } = false := by decide
theorem test_default_sizes :
    Config.default.np = 8 ∧ Config.default.n = 1025 ∧ Config.geometryLegal Config.default = true := by decide

/-! ## Decoding: words written out from R66 as `opc ++ rsv ++ v ++ y ++ x`, and the table V-EN -/

theorem test_decode_clear : decodesTo 0b0001_00000000000_0_00000000_00000000#32 .clear := by unfold decodesTo; decide
theorem test_decode_setpix :
    decodesTo 0b0010_00000000000_1_00010100_00000101#32 (.setpix 5#8 20#8 true) := by unfold decodesTo; decide
theorem test_decode_setpix_offBit :
    decodesTo 0b0010_00000000000_0_00111111_01111111#32 (.setpix 127#8 63#8 false) := by unfold decodesTo; decide
theorem test_decode_setpix_outOfRange : decodesTo 0x2001FFFF#32 (.setpix 255#8 255#8 true) := by unfold decodesTo; decide
theorem test_decode_refresh : decodesTo 0b0011_00000000000_0_00000000_00000000#32 .refresh := by unfold decodesTo; decide
theorem test_decode_init : decodesTo 0b0100_00000000000_0_00000000_00000000#32 .init := by unfold decodesTo; decide
theorem test_decode_caload : decodesTo 0b1000_00000000000_0_00000000_00000000#32 .caload := by unfold decodesTo; decide
theorem test_decode_caseed : decodesTo 0b1001_00000000000_0_00000000_00000000#32 .caseed := by unfold decodesTo; decide
theorem test_decode_advance : decodesTo 0b1010_00000000000_0_00000000_00000000#32 .advance := by unfold decodesTo; decide
theorem test_decode_rdcell :
    decodesTo 0b1011_00000000000_0_00000001_00000010#32 (.rdcell 2#8 1#8) := by unfold decodesTo; decide

/-- The refused words of V-EN. -/
theorem test_decode_reserved :
    decodeCmd 0x00000000#32 = .error (.reservedOpcode 0x0#4) ∧ decodeCmd 0x50000000#32 = .error (.reservedOpcode 0x5#4) ∧
      decodeCmd 0xF0000000#32 = .error (.reservedOpcode 0xF#4) ∧
      decodeCmd 0x10000001#32 = .error (.reservedBits 0x10000001#32) ∧
      decodeCmd 0x20020000#32 = .error (.reservedBits 0x20020000#32) ∧
      decodeCmd 0xB0010102#32 = .error (.reservedBits 0xB0010102#32) ∧
      decodeCmd 0x30010000#32 = .error (.reservedBits 0x30010000#32) := by decide

/-- Page select of page 7 (S3), of page 79, the last a byte can select, and a byte below `PAGE_BASE`, which selects none. -/
theorem test_decode_framePagesel :
    decode tiny (.frame [0x00#8, 0xB7#8, 0x02#8, 0x10#8]) = .ok (.framePagesel 7#8) ∧
      decode tiny (.frame [0x00#8, 0xFF#8, 0x02#8, 0x10#8]) = .ok (.framePagesel 79#8) ∧
      pageSelected [0x00#8, 0xAF#8, 0x02#8, 0x10#8] = none := by decide

/-- A data frame has `W + 1` bytes (R62). -/
theorem test_decode_frameData :
    decode tiny (.frame [0x40#8, 1#8, 2#8, 3#8, 4#8, 5#8, 6#8, 7#8, 8#8]) = .ok .frameData ∧
      decode tiny (.frame [0x40#8, 1#8]) = .error (.frameLength 2) := by decide

/-- A command frame that is no page select is the initialization frame (R63); other bytes are no frame. -/
theorem test_decode_frameInit :
    decode tiny (.frame [0x00#8, 0x81#8, 0x7F#8]) = .ok .frameInit ∧ decode tiny (.frame []) = .error .emptyFrame ∧
      decode tiny (.frame [0x41#8]) = .error (.unknownTag 0x41#8) := by decide

/-! ## Address decoder (V-AD) -/

theorem test_adec_default :
    adec Config.default 0#8 0#8 = some (1, 0#3) ∧ adec Config.default 127#8 0#8 = some (128, 0#3) ∧
      adec Config.default 0#8 8#8 = some (129, 0#3) ∧ adec Config.default 5#8 20#8 = some (262, 4#3) ∧
      adec Config.default 64#8 31#8 = some (449, 7#3) ∧ adec Config.default 127#8 63#8 = some (1024, 7#3) ∧
      adec Config.default 128#8 63#8 = none ∧ adec Config.default 127#8 64#8 = none := by decide

theorem test_adec_small :
    adec tiny 7#8 7#8 = some (8, 7#3) ∧ adec tiny 0#8 8#8 = some (9, 0#3) ∧ adec tiny 3#8 12#8 = some (12, 4#3) ∧
      adec tiny 7#8 15#8 = some (16, 7#3) ∧ adec tiny 8#8 0#8 = none ∧ adec tiny 0#8 16#8 = none := by decide

/-! ## One step of each instruction -/

/-- V-PX 1, with the reserved slot. -/
theorem test_clear :
    answers (exec .clear (withBytes tiny [(0, 0x5A#8), (5, 0xFF#8)])) (fun t =>
      fbByte t 0 == 0x00#8 && fbByte t 5 == 0x00#8 && fbByte t 16 == 0x00#8 && t.fbValid && t.bus.isEmpty) = true := by
  decide

/-- V-PX 3: a second bit of one byte. -/
theorem test_setpix_sets :
    answers (exec (.setpix 0#8 7#8 true) (withBytes tiny [(1, 0x01#8)]))
      (fun t => fbByte t 1 == 0x81#8 && fbByte t 0 == 0x00#8 && fbByte t 2 == 0x00#8) = true := by decide

/-- V-PX 9, on the small surface: the last byte keeps its other bits. -/
theorem test_setpix_clears :
    answers (exec (.setpix 7#8 15#8 false) (withBytes tiny [(16, 0xFF#8)])) (fun t => fbByte t 16 == 0x7F#8) = true := by
  decide

/-- V-PS 10: both pages, the tag in place of `FB[8] = 0x80`, which is as before afterwards. -/
theorem test_refresh :
    answers (exec .refresh (withBytes tiny [(1, 0x01#8), (8, 0x80#8), (9, 0x01#8), (12, 0x10#8)])) (fun t =>
      t.bus == [
        ⟨0x3C#8, [0x00#8, 0xB0#8, 0x02#8, 0x10#8]⟩,
        ⟨0x3C#8, [0x40#8, 0x01#8, 0#8, 0#8, 0#8, 0#8, 0#8, 0#8, 0x80#8]⟩,
        ⟨0x3C#8, [0x00#8, 0xB1#8, 0x02#8, 0x10#8]⟩,
        ⟨0x3C#8, [0x40#8, 0x01#8, 0#8, 0#8, 0x10#8, 0#8, 0#8, 0#8, 0#8]⟩] &&
      t.fb == [(1, 0x01#8), (8, 0x80#8), (9, 0x01#8), (12, 0x10#8)] && !t.busy) = true := by decide

/-- V-PS 2: the reserved slot is on no frame and stays. -/
theorem test_refresh_reservedSlot :
    answers (exec .refresh (withBytes square [(0, 0x5A#8)])) (fun t =>
      t.bus.map Event.bytes == [[0x00#8, 0xB0#8, 0x02#8, 0x10#8], 0x40#8 :: List.replicate 8 0#8] &&
      fbByte t 0 == 0x5A#8) = true := by decide

/-- V-PS 7: the frame, the clear, then the refresh. -/
theorem test_init :
    answers (exec .init (withBytes tiny [(5, 0xFF#8)])) (fun t =>
      t.bus.map Event.bytes == [
        [0x00#8, 0x81#8, 0x7F#8],
        [0x00#8, 0xB0#8, 0x02#8, 0x10#8], 0x40#8 :: List.replicate 8 0#8,
        [0x00#8, 0xB1#8, 0x02#8, 0x10#8], 0x40#8 :: List.replicate 8 0#8] &&
      fbByte t 5 == 0x00#8 && t.fbValid) = true := by decide

/-- R120: the glider's port value has the bits `y*4 + x` of its five cells, 1, 6, 8, 9 and 10. -/
theorem test_caload :
    answers (exec .caload { blank tiny with gridIn := 2 ^ 1 + 2 ^ 6 + 2 ^ 8 + 2 ^ 9 + 2 ^ 10 })
      (fun t => t.cur == glider && t.caValid) = true := by decide

/-- R122: a cell of `CUR` is the generator's, for the sampled seed. -/
theorem test_caseed :
    answers (exec .caseed { blank tiny with seedIn := 0x12345678#32 })
      (fun t => cell t.cur 3 1 == Config.prngFill 0x12345678#32 4 4 3 1 && t.caValid) = true := by
  show (Config.prngFill 0x12345678#32 4 4 3 1 == Config.prngFill 0x12345678#32 4 4 3 1 && true) = true
  simp

/-- S7: the glider's next generation. -/
theorem test_advance_glider :
    answers (exec .advance (withGrid tiny glider)) (fun t => t.cur ==
      [[false, false, false, false], [true, false, true, false], [false, true, true, false],
        [false, true, false, false]]) = true := by decide

/-- V-CA 6: a grid that is not square, `GH = 2`, `GW = 3`. -/
theorem test_advance_notSquare :
    answers (exec .advance (withGrid { tiny with gw := 3, gh := 2 } [[true, true, true], [false, false, false]]))
      (fun t => t.cur == [[false, true, false], [false, true, false]]) = true := by decide

/-- V-CA 9 inside the grid. -/
theorem test_rdcell_inside :
    answers (exec (.rdcell 1#8 0#8) (withGrid tiny glider)) (fun t => t.rdData && t.cur == glider) = true := by decide

/-- V-CA 9 outside the grid. -/
theorem test_rdcell_outside :
    answers (exec (.rdcell 4#8 0#8) { withGrid tiny glider with rdData := true }) (fun t => !t.rdData) = true := by decide

/-- S3, and the wait of R70. -/
theorem test_framePagesel :
    answers (exec (.framePagesel 3#8) (blank tiny))
      (fun t => t.bus == [⟨0x3C#8, [0x00#8, 0xB3#8, 0x02#8, 0x10#8]⟩]) = true ∧
    answers (exec (.framePagesel 3#8) { blank tiny with txReady := false }) (fun t => t.bus.isEmpty) = true := by decide

/-- V-PS 10, page 1 alone: `FB[8]` is its tag slot, sent as the tag and kept in `SAVED`. -/
theorem test_frameData :
    answers (exec .frameData
        { withBytes tiny [(8, 0x80#8), (9, 0x01#8), (12, 0x10#8)] with seq := (held .refresh 1 .data).seq })
      (fun t => t.bus == [⟨0x3C#8, [0x40#8, 0x01#8, 0#8, 0#8, 0x10#8, 0#8, 0#8, 0#8, 0#8]⟩] &&
        t.regs.saved == 0x80#8 && fbByte t 8 == 0x80#8) = true := by decide

/-- R63: the frame of the build. -/
theorem test_frameInit :
    answers (exec .frameInit (blank tiny)) (fun t => t.bus == [⟨0x3C#8, [0x00#8, 0x81#8, 0x7F#8]⟩]) = true := by decide

/-- V-CA 1: the truth table of the rule. -/
theorem test_ruleTable :
    (List.range 9).map (nextCell false) = [false, false, false, true, false, false, false, false, false] ∧
      (List.range 9).map (nextCell true) = [false, false, true, true, false, false, false, false, false] := by decide

/-- S7: the full counts of the glider. -/
theorem test_counts :
    (List.range 4).map (fun y => (List.range 4).map fun x => count tiny glider x y) =
      [[1, 1, 2, 1], [3, 5, 3, 2], [1, 3, 2, 2], [2, 3, 2, 1]] := by decide

/-! ## The port and the step -/

/-- A reserved opcode is refused from reset, although it would read nothing (P5). -/
theorem test_step_reservedOpcode :
    isRefused (step (withHost tiny [offerOf 0x60000000#32])) (.reservedOpcode 0x6#4) = true := by decide

/-- A grid literal of another shape is refused at the front end (P5). -/
theorem test_gridLiteral_shape : caloadLiteral tiny [[true, false], [false, true]] 0#32 = .refused .gridShape := rfl

/-- R70: the beats of a frame. -/
theorem test_beats :
    (eventBeats ⟨0x3C#8, [0x00#8, 0xB0#8, 0x02#8]⟩).map (fun b => (b.first, b.last)) =
      [(true, false), (false, false), (false, true)] := by decide

/-- A held REFRESH with the transport not ready stays, `BUSY` 1, and the offered command waits (R174, R177). -/
theorem test_step_waits :
    answers (step { held .refresh 1 .cmd with txReady := false, host := [offerOf 0x10000000#32] })
      (fun t => t.busy && t.seq.p == 1 && t.bus.isEmpty && t.host == [offerOf 0x10000000#32]) = true := by decide

/-- The last data frame of a held REFRESH ends it (R25, R26). -/
theorem test_step_lastFrame :
    answers (step (held .refresh 1 .data)) (fun t => !t.busy && t.seq.op == .idle && t.bus.length == 1) = true := by decide

/-- R70: `tx_valid` and the byte offered, at a data frame the transport holds up and on an idle block. -/
theorem test_txOffered :
    txOffered (held .refresh 1 .data) = some ⟨0x3C#8, 0x40#8, true, false⟩ ∧ txValid (held .init 0 .initFrame) = true ∧
      txOffered (blank tiny) = none ∧ txValid (blank tiny) = false := by decide

/-- R182: `RD_DATA` is observed once an RDCELL was issued. -/
theorem test_observe_rdData :
    (observe (blank tiny)).rdData = none ∧
      answers (exec (.rdcell 1#8 0#8) (withGrid tiny glider)) (fun t => (observe t).rdData == some true) = true := by
  decide

/-- R136: the matrix of a grid that is not square, `GH = 2`, `GW = 3`, row by row. -/
theorem test_getGrid :
    (match getGrid (withGrid { tiny with gw := 3, gh := 2 } [[true, false, false], [false, true, true]]) with
      | .next r => r.1 == [[true, false, false], [false, true, true]] && !r.2.busy
      | .fault _ => false
      | .refused _ => false) = true := by decide

/-- R174, R177: a REFRESH that hangs is not overtaken by the next command of the host: `CUR` and `BUSY` stay. -/
theorem test_issue_waits :
    answers (issueAdvance { held .refresh 1 .cmd with txReady := false, cur := glider })
      (fun t => t.busy && t.seq.op == .refresh && t.cur == glider && t.bus.isEmpty) = true := by decide

/-- R174: with a transport that takes its time the REFRESH is sent whole before the ADVANCE. -/
theorem test_issue_afterRefresh :
    answers (issueAdvance { held .refresh 1 .cmd with txPlan := [false, true], cur := glider })
      (fun t => !t.busy && t.bus.length == 2 && t.cur != glider) = true := by decide

/-! ## Each row of the opcode table runs as the first instruction after reset -/

theorem test_first_clear : isNext (step (State.reset.withFetchWord 32 0x10000000)) = true := by decide +kernel
theorem test_first_setpix : isNext (step (State.reset.withFetchWord 32 0x20011405)) = true := by decide +kernel
theorem test_first_refresh : isNext (step (State.reset.withFetchWord 32 0x30000000)) = true := by decide +kernel
theorem test_first_init : isNext (step (State.reset.withFetchWord 32 0x40000000)) = true := by decide +kernel
theorem test_first_caload : isNext (step (State.reset.withFetchWord 32 0x80000000)) = true := by decide +kernel
theorem test_first_caseed : isNext (step (State.reset.withFetchWord 32 0x90000000)) = true := by decide +kernel
theorem test_first_advance : isNext (step (State.reset.withFetchWord 32 0xA0000000)) = true := by decide +kernel
theorem test_first_rdcell : isNext (step (State.reset.withFetchWord 32 0xB0000102)) = true := by decide +kernel
theorem test_first_framePagesel :
    answers (step (State.reset.withFetchWord 32 0x00B30210))
      (fun t => t.bus.map Event.bytes == [[0x00#8, 0xB3#8, 0x02#8, 0x10#8]]) = true := by decide +kernel
theorem test_first_frameData : isNext (step (State.reset.withFetchWord 1032 (0x40 * 2 ^ 1024))) = true := by
  decide +kernel
theorem test_frameData_placed :
    answers (step ((blank Config.default).withFetchWord 1032 (0x40 * 2 ^ 1024 + 0xA5 * 2 ^ 1016)))
      (fun t => (t.bus.map fun e => e.bytes.take 3) == [[0x40#8, 0xA5#8, 0x00#8]]) = true := by decide +kernel
theorem test_first_frameInit : isNext (step (State.reset.withFetchWord 8 0)) = true := by decide +kernel

theorem test_tableWord :
    decodeTableWord 32 0x20011405 = some (.setpix 5#8 20#8 true) ∧
      decodeTableWord 32 0x00B30210 = some (.framePagesel 3#8) ∧ decodeTableWord 1032 (0x40 * 2 ^ 1024) = some .frameData ∧
      decodeTableWord 8 0 = some .frameInit ∧ decodeTableWord 32 0 = none := by decide +kernel

/-! ## Witnesses: states and operands that meet an obligation's hypotheses together -/

theorem witness_ResetLeavesIdleState :
    (withHost tiny [.resetPin]).cfg.geometryLegal = true ∧ (withHost tiny [.resetPin]).busy = false ∧
      (withHost tiny [.resetPin]).host = [.resetPin] := by decide

theorem witness_StepRunsOfferedCommand :
    (withHost tiny [offerOf 0x20010000#32]).cfg.geometryLegal = true ∧
      (withHost tiny [offerOf 0x20010000#32]).busy = false ∧
      (withHost tiny [offerOf 0x20010000#32]).host = [offerOf 0x20010000#32] ∧
      decode tiny (.cmd 0x20010000#32) = .ok (.setpix 0#8 0#8 true) := ⟨by decide, rfl, rfl, rfl⟩

/-- One witness for each position: the initialization frame, a page select, a data frame. -/
theorem witness_StepSendsHeldFrame :
    ∀ s ∈ [held .init 0 .initFrame, held .refresh 1 .cmd, held .init 1 .data],
      s.cfg.geometryLegal = true ∧ s.busy = true ∧ (s.seq.op = .refresh ∨ s.seq.op = .init) ∧
        (sampleTx s).txReady = true := by
  simp only [List.forall_mem_cons]
  exact ⟨by decide, by decide, by decide, by simp⟩

theorem witness_StepWaitsForTransport :
    ∀ s ∈ [{ held .refresh 0 .cmd with txPlan := [false] }, { held .init 0 .initFrame with txReady := false }],
      s.cfg.geometryLegal = true ∧ s.busy = true ∧ (s.seq.op = .refresh ∨ s.seq.op = .init) ∧
        (sampleTx s).txReady = false := by
  simp only [List.forall_mem_cons]
  exact ⟨by decide, by decide, by simp⟩

theorem witness_StepIdleHoldsState :
    (blank tiny).cfg.geometryLegal = true ∧ (blank tiny).busy = false ∧ (blank tiny).host = [] := by decide

/-- A build outside each bound of R7. -/
theorem witness_UnadmittedBuildRefused :
    ∀ c ∈ [{ tiny with w := 0 }, { tiny with w := 12 }, { tiny with w := 264 }, { tiny with h := 0 },
        { tiny with h := 20 }, { tiny with h := 264 }, { tiny with h := 648 }, { tiny with gw := 0 },
        { tiny with gw := 257 }, { tiny with gh := 0 }, { tiny with gh := 257 }],
      ¬ (1 ≤ (blank c).cfg.w ∧ (blank c).cfg.w % 8 = 0 ∧ (blank c).cfg.w ≤ 256 ∧ 1 ≤ (blank c).cfg.h ∧
        (blank c).cfg.h % 8 = 0 ∧ (blank c).cfg.h ≤ 256 ∧ (blank c).cfg.np ≤ 80 ∧ 1 ≤ (blank c).cfg.gw ∧
        (blank c).cfg.gw ≤ 256 ∧ 1 ≤ (blank c).cfg.gh ∧ (blank c).cfg.gh ≤ 256) := by
  simp [blank, State.powerOn, tiny, Config.np]

/-- The lowest and the highest reserved opcode, on a block that holds nothing written since reset. -/
theorem witness_ReservedOpcodeRefused :
    ∀ w ∈ [0x00000000#32, 0x5A5A5A5A#32, 0xFFFFFFFF#32],
      (withHost tiny [offerOf w]).cfg.geometryLegal = true ∧ (withHost tiny [offerOf w]).busy = false ∧
        (withHost tiny [offerOf w]).host = [offerOf w] ∧
        w.extractLsb' 28 4 ∈ [0x0#4, 0x5#4, 0x6#4, 0x7#4, 0xC#4, 0xD#4, 0xE#4, 0xF#4] := by
  simp only [List.forall_mem_cons]
  exact ⟨⟨by decide, rfl, rfl, by decide⟩, ⟨by decide, rfl, rfl, by decide⟩, ⟨by decide, rfl, rfl, by decide⟩, by simp⟩

/-- One witness for each clause: bit 17 of SETPIX, bit 27 of RDCELL; bit 16 of REFRESH; bit 0 of CLEAR. -/
theorem witness_ReservedBitsRefused :
    (∀ w ∈ [0x20020000#32, 0xB8000000#32, 0x30010000#32, 0x10000001#32],
      (withHost tiny [offerOf w]).cfg.geometryLegal = true ∧ (withHost tiny [offerOf w]).busy = false ∧
        (withHost tiny [offerOf w]).host = [offerOf w] ∧
        w.extractLsb' 28 4 ∈ [0x1#4, 0x2#4, 0x3#4, 0x4#4, 0x8#4, 0x9#4, 0xA#4, 0xB#4]) ∧
    (0x20020000#32).extractLsb' 17 11 ≠ 0#11 ∧ (0xB8000000#32).extractLsb' 17 11 ≠ 0#11 ∧
    ((0x30010000#32).extractLsb' 28 4 ≠ 0x2#4 ∧ (0x30010000#32).getLsbD 16 = true) ∧
    ((0x10000001#32).extractLsb' 28 4 ≠ 0x2#4 ∧ (0x10000001#32).extractLsb' 28 4 ≠ 0xB#4 ∧
      (0x10000001#32).extractLsb' 0 16 ≠ 0#16) := by
  refine ⟨?_, by decide, by decide, by decide, by decide⟩
  simp only [List.forall_mem_cons]
  exact ⟨⟨by decide, rfl, rfl, by decide⟩, ⟨by decide, rfl, rfl, by decide⟩, ⟨by decide, rfl, rfl, by decide⟩,
    ⟨by decide, rfl, rfl, by decide⟩, by simp⟩

/-- The first and the last page of the small build, and a data frame's `W` bytes. -/
theorem witness_DecodeEncodeRoundTrip :
    Config.legal tiny = true ∧ Instr.wellFormed tiny (.framePagesel 0#8) = true ∧
      Instr.wellFormed tiny (.framePagesel 1#8) = true ∧ Instr.wellFormed tiny .frameData = true ∧
      (List.replicate 8 0xFF#8 : List Byte).length = tiny.w := by decide

theorem witness_CommandWordIsItsEncoding : decode tiny (.cmd 0xB000FFFF#32) = .ok (.rdcell 255#8 255#8) := rfl

/-- The boundary of each clause: page 79 is the last below 80, page 15 the last below 16. -/
theorem witness_PageSelectByteValue :
    (79#8).toNat < 80 ∧ (cmdFrame 79#8)[1]? = some 0xFF#8 ∧ (15#8).toNat < 16 ∧ (cmdFrame 15#8)[1]? = some 0xBF#8 ∧
      (cmdFrame 16#8)[1]? = some 0xC0#8 ∧ (cmdFrame 80#8)[1]? = some 0x00#8 := by decide

theorem witness_TxBeatsCarryFrames :
    ∀ e ∈ [(⟨0x3C#8, [0x00#8]⟩ : Event), ⟨0x3C#8, [0x40#8, 0x01#8]⟩], e.bytes ≠ [] := by decide

/-- The least and the greatest build. -/
theorem witness_AdecRange :
    Config.geometryLegal { tiny with w := 8, h := 8 } = true ∧ adec { tiny with w := 8, h := 8 } 7#8 7#8 = some (8, 7#3) ∧
      Config.geometryLegal largest = true ∧ adec largest 255#8 255#8 = some (8192, 7#3) := by decide

/-- Injectivity on a pixel, and the last index and bit reached. -/
theorem witness_AdecBijective :
    Config.geometryLegal tiny = true ∧ adec tiny 7#8 15#8 = some (16, 7#3) ∧ 1 ≤ 16 ∧ 16 ≤ tiny.n - 1 := by decide

/-- The first and the last pixel. -/
theorem witness_SetpixWritesOneBit :
    (blank tiny).cfg.geometryLegal = true ∧ adec (blank tiny).cfg 0#8 0#8 = some (1, 0#3) ∧
      adec (blank tiny).cfg 7#8 15#8 = some (16, 7#3) := by decide

/-- Each coordinate at its first value out of range. -/
theorem witness_SetpixOutOfRangeIgnored :
    (blank tiny).cfg.w ≤ (8#8).toNat ∧ (blank tiny).cfg.h ≤ (16#8).toNat := by decide

/-- Two pixels of one byte, and two of different bytes. -/
theorem witness_SetpixLaws :
    (blank tiny).cfg.geometryLegal = true ∧ adec (blank tiny).cfg 0#8 0#8 = some (1, 0#3) ∧
      adec (blank tiny).cfg 0#8 7#8 = some (1, 7#3) ∧ adec (blank tiny).cfg 1#8 0#8 = some (2, 0#3) ∧
      ((0#8 : Coord) ≠ 0#8 ∨ (0#8 : Coord) ≠ 7#8) ∧ ((0#8 : Coord) ≠ 1#8 ∨ (0#8 : Coord) ≠ 0#8) := by decide

/-- By a SETPIX on another pixel of the same byte, and by a REFRESH. -/
theorem witness_PixelPersists :
    (blank tiny).cfg.geometryLegal = true ∧ adec (blank tiny).cfg 0#8 0#8 = some (1, 0#3) ∧
      (Instr.setpix 0#8 7#8 true ≠ .clear ∧ Instr.setpix 0#8 7#8 true ≠ .init ∧
        (∀ v, Instr.setpix 0#8 7#8 true ≠ .setpix 0#8 0#8 v) ∧
        ∃ t, exec (.setpix 0#8 7#8 true) (blank tiny) = .next t) ∧
      (Instr.refresh ≠ .clear ∧ Instr.refresh ≠ .init ∧ (∀ v, Instr.refresh ≠ .setpix 0#8 0#8 v) ∧
        ∃ t, exec .refresh (blank tiny) = .next t) :=
  ⟨by decide, by decide, ⟨by decide, by decide, by simp, ⟨_, rfl⟩⟩,
    ⟨by decide, by decide, by simp, execRefresh_answers rfl⟩⟩

theorem witness_OnlyDisplayWritersWriteFb :
    Instr.refresh ≠ .clear ∧ Instr.refresh ≠ .init ∧ (∀ x y v, Instr.refresh ≠ .setpix x y v) ∧
      ∃ t, exec .refresh (blank tiny) = .next t :=
  ⟨by decide, by decide, by simp, execRefresh_answers rfl⟩

theorem witness_PageSelectFrameSent : (blank tiny).txReady = true := rfl

/-- The first and the last page. -/
theorem witness_DataFrameSent :
    (blank tiny).txReady = true ∧ (held .refresh 0 .data).seq.p < (held .refresh 0 .data).cfg.np ∧
      (held .refresh 1 .data).txReady = true ∧ (held .refresh 1 .data).seq.p < (held .refresh 1 .data).cfg.np ∧
      Memory.wf (held .refresh 1 .data).fbBase (held .refresh 1 .data).cfg.n (held .refresh 1 .data).fb = true :=
  ⟨rfl, by decide, rfl, by decide, rfl⟩

theorem witness_InitFrameSent : (blank tiny).txReady = true ∧ (blank tiny).cfg.legal = true := by decide

theorem witness_FramesWaitForTransport : { blank tiny with txReady := false }.txReady = false := rfl

/-- A framebuffer with a listed byte in canonical form. -/
theorem witness_RefreshSendsEveryPage :
    (withBytes tiny [(8, 0x80#8)]).txReady = true ∧
      Memory.wf (withBytes tiny [(8, 0x80#8)]).fbBase (withBytes tiny [(8, 0x80#8)]).cfg.n
        (withBytes tiny [(8, 0x80#8)]).fb = true := ⟨rfl, by decide⟩

theorem witness_EveryPixelByteSentOnce : (blank tiny).txReady = true := rfl

/-- V-PS 2: two framebuffers that differ in the reserved slot. -/
theorem witness_ReservedSlotNeverShown :
    (withBytes tiny [(0, 0x5A#8)]).cfg = (blank tiny).cfg ∧ (withBytes tiny [(0, 0x5A#8)]).bus = (blank tiny).bus ∧
      (withBytes tiny [(0, 0x5A#8)]).txReady = (blank tiny).txReady ∧
      (∀ a, 1 ≤ a → fbByte (withBytes tiny [(0, 0x5A#8)]) a = fbByte (blank tiny) a) ∧
      fbByte (withBytes tiny [(0, 0x5A#8)]) 0 ≠ fbByte (blank tiny) 0 ∧
      (∃ t, exec .refresh (blank tiny) = .next t) ∧ ∃ t, exec .refresh (withBytes tiny [(0, 0x5A#8)]) = .next t := by
  refine ⟨rfl, rfl, rfl, fun a ha => ?_, by decide, execRefresh_answers rfl, execRefresh_answers rfl⟩
  have h0 : ¬ 0 = a := by omega
  show Memory.read _ [(0, 0x5A#8)] a = Memory.read _ [] a
  simp [Memory.read, h0]
  rfl

theorem witness_PixelPositionOnWire :
    (blank tiny).cfg.geometryLegal = true ∧ (blank tiny).txReady = true ∧
      adec (blank tiny).cfg 7#8 7#8 = some (8, 7#3) ∧ adec (blank tiny).cfg 0#8 8#8 = some (9, 0#3) := by decide

theorem witness_InitConfiguresAndBlanks : (blank tiny).txReady = true := rfl

theorem witness_HeldOperationResumes :
    (blank tiny).cfg.geometryLegal = true ∧ (blank tiny).txReady = true ∧ (blank tiny).txPlan = [] := by decide

/-- The far corner of the small grid. -/
theorem witness_cellsInside : 3 < (blank tiny).cfg.gw ∧ 3 < (blank tiny).cfg.gh := by decide

/-- The least grid of the second clause. -/
theorem witness_UniformGrids : 3 ≤ { tiny with gw := 3, gh := 3 }.gw ∧ 3 ≤ { tiny with gw := 3, gh := 3 }.gh := by
  decide

/-- Two blocks with the build and the seed in common, and not the grid. -/
theorem witness_SeedDeterminism :
    (withGrid tiny glider).cfg = (withGrid tiny []).cfg ∧ (withGrid tiny glider).seedIn = (withGrid tiny []).seedIn ∧
      (withGrid tiny glider).cur ≠ (withGrid tiny []).cur := by decide

/-- A literal of the engine's shape, and one short of a row. -/
theorem witness_GridLiteralPacked :
    gridShape tiny.gw tiny.gh glider = true ∧ gridShape tiny.gw tiny.gh (glider.take 3) = false := by decide

/-- The invariant of an idle block of an admitted build. -/
theorem blank_inv {c : Config} (h : c.legal = true) : Inv (blank c) where
  cfgLegal := h
  fbWf := rfl
  curShape := gridShape_gridOf _ _ _
  nxtShape := gridShape_gridOf _ _ _
  busyIff := by simp [blank, State.powerOn]
  opWaits := .inl rfl
  pageInRange := fun hne => absurd rfl hne
  initPhase := fun hr => absurd hr (by simp [blank])
  busOk := by simp [blank, State.powerOn]

/-- The invariant while REFRESH stands at its last data frame. -/
theorem held_inv : Inv (held .refresh 1 .data) where
  cfgLegal := by decide
  fbWf := rfl
  curShape := gridShape_gridOf _ _ _
  nxtShape := gridShape_gridOf _ _ _
  busyIff := by simp [held]
  opWaits := .inr (.inl rfl)
  pageInRange := fun _ _ => by decide
  initPhase := fun _ => by simp [held]
  busOk := by simp [held, blank, State.powerOn]

theorem witness_StepKeepsInvariant :
    (Inv (blank tiny) ∧ ∃ t, step (blank tiny) = .next t) ∧
      (Inv (held .refresh 1 .data) ∧ isNext (step (held .refresh 1 .data)) = true) :=
  ⟨⟨blank_inv (by decide), ⟨_, rfl⟩⟩, held_inv, by decide⟩

theorem witness_NoStepFaults : Inv (blank tiny) ∧ Inv (held .refresh 1 .data) := ⟨blank_inv (by decide), held_inv⟩

theorem witness_BuildIsConstant : ∃ t, step (withHost tiny [offerOf 0xA0000000#32]) = .next t := ⟨_, rfl⟩

theorem witness_BusOnlyGrows : ∃ t, exec .refresh (blank tiny) = .next t := execRefresh_answers rfl

theorem witness_UnitsAreIsolated :
    (∃ t, exec .init (blank tiny) = .next t) ∧ (∃ t, exec (.setpix 0#8 0#8 true) (blank tiny) = .next t) ∧
      (∃ t, exec (.framePagesel 0#8) (blank tiny) = .next t) ∧ (∃ t, exec .advance (blank tiny) = .next t) ∧
      ∃ t, exec (.rdcell 0#8 0#8) (blank tiny) = .next t :=
  ⟨execInit_answers rfl, ⟨_, rfl⟩, ⟨_, rfl⟩, ⟨_, rfl⟩, ⟨_, rfl⟩⟩

theorem witness_ValidityMarks : (blank tiny).txReady = true ∧ ∃ t, exec .clear (blank tiny) = .next t := ⟨rfl, ⟨_, rfl⟩⟩

theorem witness_BusyFallsWhenFinished :
    (decode tiny (.cmd 0x30000000#32) = .ok .refresh ∧ (blank tiny).txReady = true ∧
      ∃ t, exec .refresh (blank tiny) = .next t) ∧ 0 < 1 ∧ 31 < 32 :=
  ⟨⟨rfl, rfl, execRefresh_answers rfl⟩, by decide, by decide⟩

theorem witness_RenderCopiesGrid :
    (blank square).cfg.geometryLegal = true ∧ (blank square).cfg.gw = (blank square).cfg.w ∧
      (blank square).cfg.gh = (blank square).cfg.h ∧ (blank square).busy = false ∧ 0 < (blank square).cfg.np ∧
      7 < (blank square).cfg.w := by decide

theorem witness_GetGridReadsGrid :
    (withGrid tiny glider).cfg.geometryLegal = true ∧ (withGrid tiny glider).busy = false ∧
      gridShape (withGrid tiny glider).cfg.gw (withGrid tiny glider).cfg.gh (withGrid tiny glider).cur = true := by decide

theorem witness_BootPreparesBlock :
    (withHost tiny (bootActs 7#32 0)).cfg.geometryLegal = true ∧ (withHost tiny (bootActs 7#32 0)).busy = false ∧
      (withHost tiny (bootActs 7#32 0)).txReady = true ∧ (withHost tiny (bootActs 7#32 0)).txPlan = [] ∧
      (withHost tiny (bootActs 7#32 0)).host = bootActs 7#32 0 ++ [] := by decide

/-- A transport ready all along, one that takes its time, and one whose last planned level is the ready one. -/
theorem witness_FrameIterationShowsGeneration :
    ∀ s ∈ [blank square, { blank square with txPlan := [false, true, false, true] },
        { blank square with txReady := false, txPlan := [true] }],
      s.cfg.geometryLegal = true ∧ s.cfg.gw = s.cfg.w ∧ s.cfg.gh = s.cfg.h ∧ s.busy = false ∧ txEndsReady s = true ∧
        0 < s.cfg.np ∧ 7 < s.cfg.w := by
  simp only [List.forall_mem_cons]
  exact ⟨by decide, by decide, by decide, by simp⟩

theorem witness_FrameLoopShowsGenerations :
    ∀ s ∈ [blank square, { blank square with txReady := false, txPlan := [false, true] }],
      s.cfg.geometryLegal = true ∧ s.cfg.gw = s.cfg.w ∧ s.cfg.gh = s.cfg.h ∧ s.busy = false ∧ txEndsReady s = true ∧
        0 < s.cfg.np := by
  simp only [List.forall_mem_cons]
  exact ⟨by decide, by decide, by simp⟩

/-- An idle block, and one that stands at its last data frame. -/
theorem witness_WaitEndsWhenTransportTakesBytes :
    (Inv (blank tiny) ∧ txEndsReady (blank tiny) = true) ∧
      Inv (held .refresh 1 .data) ∧ txEndsReady (held .refresh 1 .data) = true :=
  ⟨⟨blank_inv (by decide), rfl⟩, held_inv, rfl⟩

/-- A REFRESH and an INIT that hang, and an idle block whose transport is never ready. -/
theorem witness_CompositionWaitsForTransport :
    (∀ s ∈ [{ held .refresh 1 .data with txReady := false }, { held .init 0 .initFrame with txReady := false }],
      s.cfg.geometryLegal = true ∧ s.busy = true ∧ (s.seq.op = .refresh ∨ s.seq.op = .init) ∧ s.txReady = false ∧
        s.txPlan = []) ∧
    ({ blank square with txReady := false }.cfg.geometryLegal = true ∧ square.gw = square.w ∧ square.gh = square.h ∧
      { blank square with txReady := false }.busy = false ∧ { blank square with txReady := false }.txPlan = []) := by
  simp only [List.forall_mem_cons]
  exact ⟨⟨by decide, by decide, by simp⟩, by decide⟩

/-- An idle block; the transport ready at each position, and not ready at one. -/
theorem witness_TxOffersHeldFrame :
    ((blank tiny).cfg.geometryLegal = true ∧ (blank tiny).busy = false) ∧
    (∀ s ∈ [held .init 0 .initFrame, held .refresh 1 .cmd, held .refresh 1 .data],
      s.cfg.geometryLegal = true ∧ s.busy = true ∧ (s.seq.op = .refresh ∨ s.seq.op = .init) ∧
        (s.seq.ph = .data → s.seq.p < s.cfg.np) ∧ s.cfg.initFrame ≠ [] ∧ (sampleTx s).txReady = true) ∧
    (sampleTx { held .refresh 1 .data with txPlan := [false] }).txReady = false := by
  simp only [List.forall_mem_cons]
  exact ⟨by decide, ⟨by decide, by decide, by decide, by simp⟩, by decide⟩

/-- RDCELL, another operation, and the reset pin. -/
theorem witness_RdDataCountsOnceIssued :
    (∃ t, exec (.rdcell 0#8 0#8) (blank tiny) = .next t) ∧
      ((∀ x y, Instr.advance ≠ .rdcell x y) ∧ ∃ t, exec .advance (blank tiny) = .next t) ∧
      (withHost tiny [.resetPin]).cfg.geometryLegal = true ∧ (withHost tiny [.resetPin]).busy = false ∧
      (withHost tiny [.resetPin]).host = [.resetPin] :=
  ⟨⟨_, rfl⟩, ⟨by simp, ⟨_, rfl⟩⟩, by decide, rfl, rfl⟩

end Sys2Proof.Tests
end

section
/-! PROOFS. The scope's statements: a build outside R7 (O7), the command taken at an operation boundary (O3), and REFRESH and
INIT taken frame by frame (O32). O32 is a simulation: two steps of a held operation are one round of the page loop, and an
induction on the pages left gives the whole loop. -/

namespace Sys2Proof.Machine

/-! ## The step at its guards -/

/-- The bounds of R7 as the rule writes them; `1 ≤ NP` follows from those on `H`. -/
theorem geometryLegal_iff {c : Config} :
    c.geometryLegal = true ↔
      1 ≤ c.w ∧ c.w % 8 = 0 ∧ c.w ≤ 256 ∧ 1 ≤ c.h ∧ c.h % 8 = 0 ∧ c.h ≤ 256 ∧
        c.np ≤ 80 ∧ 1 ≤ c.gw ∧ c.gw ≤ 256 ∧ 1 ≤ c.gh ∧ c.gh ≤ 256 := by
  simp only [Config.geometryLegal, Bool.and_eq_true, decide_eq_true_eq]
  have hnp : c.np = c.h / 8 := rfl
  omega

variable {s t : State}

theorem step_of_not_geometryLegal (h : ¬ s.cfg.geometryLegal = true) : step s = .refused .illegalConfiguration :=
  if_neg h

/-- An offered word that decodes is the next step of an idle block (R15, R70). -/
theorem step_of_offer {o : Offer} {rest : List HostAct} {i : Instr} (hg : s.cfg.geometryLegal = true)
    (hb : s.busy = false) (hh : s.host = .offer o :: rest) (hd : decode s.cfg (.cmd o.cmd) = .ok i) :
    step s = exec i (takeOffer o rest (sampleTx s)) := by
  have hready : cmdReady (sampleTx s) = true := by simp [cmdReady, hb]
  rw [step, stepPorts, if_pos hg, if_pos hready]
  simp only [acceptCommand, sampleTx_host, sampleTx_cfg, hh, hd]

/-! ## Sequencing -/

section Sequencing

variable {α β γ : Type}

theorem andThen_assoc (o : Result α) (k : α → Result β) (l : β → Result γ) :
    andThen (andThen o k) l = andThen o fun a => andThen (k a) l := by
  cases o <;> rfl

/-- Two continuations need agree only on what the first part answers. -/
theorem andThen_congr {o : Result α} {k l : α → Result β} (h : ∀ a, o = .next a → k a = l a) :
    andThen o k = andThen o l := by
  cases o with
  | next a => exact h a rfl
  | fault r => rfl
  | refused r => rfl

end Sequencing

/-! ## A held operation the transport lets through -/

/-- REFRESH or INIT is in progress on an admitted geometry, and the transport is ready and stays so (R25, R177). -/
structure Flowing (s : State) : Prop where
  geometry : s.cfg.geometryLegal = true
  busy : s.busy = true
  op : s.seq.op = .refresh ∨ s.seq.op = .init
  ready : s.txReady = true
  plan : s.txPlan = []

/-- REFRESH or INIT accepted while the transport is ready flows. -/
theorem flowing_accept {op : SeqOp} (hg : s.cfg.geometryLegal = true) (hr : s.txReady = true) (hp : s.txPlan = [])
    (ho : op = .refresh ∨ op = .init) : Flowing (accept op s) := ⟨hg, rfl, ho, hr, hp⟩

/-- Sending frames and moving within the pages keeps the operation flowing. -/
theorem Flowing.sent (h : Flowing s) (hs : Sent s t) : Flowing t where
  geometry := by rw [hs.cfg]; exact h.geometry
  busy := by rw [hs.busy]; exact h.busy
  op := by rw [hs.op]; exact h.op
  ready := by rw [hs.record]; exact h.ready
  plan := by rw [hs.record]; exact h.plan

theorem flowing_moveTo (h : Flowing s) (p : Nat) (ph : Phase) : Flowing (moveTo p ph s) := h.sent (sent_moveTo p ph)

theorem flowing_clearFb (h : Flowing s) : Flowing (clearFb s) := ⟨h.geometry, h.busy, h.op, h.ready, h.plan⟩

theorem flowing_busSend (h : Flowing s) (bytes : List Byte) : Flowing (busSend bytes s) :=
  ⟨h.geometry, h.busy, h.op, h.ready, h.plan⟩

/-- One step sends the frame at the position and moves the sequencer on (R25). -/
theorem Flowing.steps_succ (h : Flowing s) (k : Nat) :
    steps (k + 1) s = andThen (frameAtPosition s) fun t => steps k (afterFrame t) := by
  rw [steps, step_of_held h.geometry h.busy h.op, sampleTx_of_nil h.plan, resumeFrames, if_pos h.ready, andThen_assoc]
  rfl

/-- After a data frame with pages left the sequencer stands at the next page's page select (R25). -/
theorem afterFrame_data_of_lt (hph : s.seq.ph = .data) (hp : s.seq.p + 1 < s.cfg.np) :
    afterFrame s = moveTo (s.seq.p + 1) .cmd s := by
  simp only [afterFrame, hph, if_pos hp]

/-- After the last page's data frame the operation is complete (R25). -/
theorem afterFrame_data_of_last (hph : s.seq.ph = .data) (hp : s.cfg.np ≤ s.seq.p + 1) : afterFrame s = finish s := by
  simp only [afterFrame, hph, if_neg (Nat.not_lt.mpr hp)]

/-- The page loop's work on one page (R98): both frames of the page, from its position `(p, CMD)`. -/
def sendBoth (p : Nat) (s : State) : Result State :=
  sendPage p (moveTo p .data (sendCmdFrame p (moveTo p .cmd s)))

theorem sendPages_cons (p : Nat) (rest : List Nat) (s : State) :
    sendPages (p :: rest) s = andThen (sendBoth p s) (sendPages rest) := rfl

/-- Both frames of a page only send. -/
theorem sent_sendBoth {p : Nat} (h : sendBoth p s = .next t) : Sent s t :=
  (((sent_moveTo p .cmd).trans (sent_busSend (.inl (List.cons_ne_nil _ _)))).trans (sent_moveTo p .data)).trans
    (sent_sendPage h)

/-- After both frames of a page the sequencer stands at the page's data frame. -/
theorem sendBoth_seq {p : Nat} (h : sendBoth p s = .next t) : t.seq = { s.seq with p := p, ph := .data } := by
  obtain ⟨m, bytes, rfl, -, -, -⟩ := sendPage_next h
  rfl

/-- Two steps from a page's first position are one round of the page loop. -/
theorem Flowing.steps_page (h : Flowing s) (p k : Nat) :
    steps (k + 2) (moveTo p .cmd s) = andThen (sendBoth p s) fun t => steps k (afterFrame t) := by
  have hcmd : frameAtPosition (moveTo p .cmd s) = .next (sendCmdFrame p (moveTo p .cmd s)) := by
    simp [frameAtPosition, execFramePagesel, sendCmdFrame, h.ready]
  have hnext : afterFrame (sendCmdFrame p (moveTo p .cmd s)) =
      moveTo p .data (sendCmdFrame p (moveTo p .cmd s)) := rfl
  have hdata : frameAtPosition (moveTo p .data (sendCmdFrame p (moveTo p .cmd s))) = sendBoth p s := by
    simp [frameAtPosition, execFrameData, sendBoth, h.ready]
  have hflow : Flowing (moveTo p .data (sendCmdFrame p (moveTo p .cmd s))) :=
    flowing_moveTo (flowing_busSend (flowing_moveTo h p .cmd) _) p .data
  rw [(flowing_moveTo h p .cmd).steps_succ (k + 1), hcmd, andThen_next, hnext,
    hflow.steps_succ k, hdata]

/-- The page loop, frame by frame: two steps for each of the `n + 1` pages left, then the operation is complete. -/
theorem Flowing.steps_pages (h : Flowing s) (n p : Nat) (hn : p + (n + 1) = s.cfg.np) :
    steps (2 * (n + 1)) (moveTo p .cmd s) =
      andThen (sendPages (List.range' p (n + 1)) s) fun t => .next (finish t) := by
  induction n generalizing p s with
  | zero =>
    rw [h.steps_page p 0, List.range'_succ, sendPages_cons, andThen_assoc]
    refine andThen_congr fun t ht => ?_
    have hseq := sendBoth_seq ht
    have hlast : t.cfg.np ≤ t.seq.p + 1 := by
      rw [(sent_sendBoth ht).cfg, hseq, ← hn]
    rw [afterFrame_data_of_last (by rw [hseq]) hlast]
    rfl
  | succ n ih =>
    rw [Nat.mul_succ, h.steps_page p, List.range'_succ, sendPages_cons, andThen_assoc]
    refine andThen_congr fun t ht => ?_
    have hseq := sendBoth_seq ht
    have hsent := sent_sendBoth ht
    have hp : t.seq.p = p := by rw [hseq]
    have hmore : p + 1 + (n + 1) = t.cfg.np := by rw [hsent.cfg]; omega
    rw [afterFrame_data_of_lt (by rw [hseq]) (by omega), hp, ih (h.sent hsent) (p + 1) hmore]

/-- A flowing operation at its first page is the whole page loop (R98). -/
theorem Flowing.steps_allPages (h : Flowing s) :
    steps (2 * s.cfg.np) (moveTo 0 .cmd s) =
      andThen (sendPages (allPages s.cfg) s) fun t => .next (finish t) := by
  obtain ⟨-, -, -, -, -, hnp, -⟩ := geometry_facts h.geometry
  obtain ⟨n, hn⟩ := Nat.exists_eq_succ_of_ne_zero (Nat.ne_of_gt hnp)
  rw [allPages, List.range_eq_range', hn]
  exact h.steps_pages n 0 (by omega)

/-- The step of the initialization frame passes INIT's clear and reaches the first page (R25, R104; log 25). -/
theorem Flowing.steps_initFrame (h : Flowing s) (k : Nat) :
    steps (k + 1) (moveTo 0 .initFrame s) =
      steps k (moveTo 0 .cmd (clearFb (busSend s.cfg.initFrame s))) := by
  have hframe : frameAtPosition (moveTo 0 .initFrame s) =
      .next (busSend s.cfg.initFrame (moveTo 0 .initFrame s)) := by
    simp [frameAtPosition, execFrameInit, h.ready]
  rw [(flowing_moveTo h 0 .initFrame).steps_succ k, hframe, andThen_next]
  rfl

/-- REFRESH frame by frame is REFRESH (R98). -/
theorem steps_heldRefresh (hg : s.cfg.geometryLegal = true) (hr : s.txReady = true) (hp : s.txPlan = []) :
    steps (2 * s.cfg.np) (moveTo 0 .cmd (accept .refresh s)) = exec .refresh s := by
  rw [exec, execRefresh, if_pos hr]
  exact (flowing_accept hg hr hp (.inl rfl)).steps_allPages

/-- INIT frame by frame is INIT (R104). -/
theorem steps_heldInit (hg : s.cfg.geometryLegal = true) (hr : s.txReady = true) (hp : s.txPlan = []) :
    steps (1 + 2 * s.cfg.np) (moveTo 0 .initFrame (accept .init s)) = exec .init s := by
  have h := flowing_accept hg hr hp (op := .init) (.inr rfl)
  rw [Nat.add_comm, h.steps_initFrame, exec, execInit, if_pos hr]
  exact (flowing_clearFb (flowing_busSend h _)).steps_allPages

/-! ## The obligations -/

/-- Settles O32: the page loop's simulation, entered at the first page by REFRESH and after the initialization frame by
INIT. -/
theorem heldOperationResumes : Obligations.HeldOperationResumes :=
  fun _ hg hr hp => ⟨steps_heldRefresh hg hr hp, steps_heldInit hg hr hp⟩

/-- Settles O3: the step at an offer that decodes. -/
theorem stepRunsOfferedCommand : Obligations.StepRunsOfferedCommand :=
  fun _ _ _ _ hg hb hh hd => step_of_offer hg hb hh hd

/-- Settles O7: the bounds of R7 are what the step tests first. -/
theorem unadmittedBuildRefused : Obligations.UnadmittedBuildRefused :=
  fun _ h => step_of_not_geometryLegal fun hg => h (geometryLegal_iff.mp hg)

end Sys2Proof.Machine
end

section
/-! PROOFS. The block's state: reset and the held step (O1, O2, O4), what every instruction does to the state (O45, O46, O48,
O49, O58), the invariant (O43), and the reserved slot (O29). One inversion lemma, `exec_ran`, says what `exec` can answer; a
statement about all instructions is then a case split over `Ran`. -/

namespace Sys2Proof.Machine

open Sys2Proof.Safety

variable {s t : State}

/-! ## What an instruction can answer -/

theorem Sent.rdIssued (h : Sent s t) : t.rdIssued = s.rdIssued := by rw [h.record]

/-- Every way an instruction answers: a command finishes, or REFRESH or INIT stands at its first frame because the transport
is not ready; a frame only sends, and leaves the sequencer where it is. -/
inductive Ran (s : State) : Instr → State → Prop
  | clear : Ran s .clear (finish (clearFb (accept .clear s)))
  | setpix {x y : Coord} {v : Bool} {m : Memory}
      (hm : Memory.wf s.fbBase s.cfg.n s.fb = true → Memory.wf s.fbBase s.cfg.n m = true) :
      Ran s (.setpix x y v) (finish (setFb m (latchAdec x y (latchV v (latchXY x y (accept .setpix s))))))
  | refresh {u : State} (hu : Sent (accept .refresh s) u) : Ran s .refresh (finish u)
  | refreshWaits (hr : s.txReady = false) : Ran s .refresh (moveTo 0 .cmd (accept .refresh s))
  | init {u : State} (hu : Sent (clearFb (busSend s.cfg.initFrame (accept .init s))) u) : Ran s .init (finish u)
  | initWaits (hr : s.txReady = false) : Ran s .init (moveTo 0 .initFrame (accept .init s))
  | caload {g : Grid} (hg : gridShape s.cfg.gw s.cfg.gh g = true) :
      Ran s .caload (finish (endScan (markCaValid (setCur g (accept .caload s)))))
  | caseed {g : Grid} (hg : gridShape s.cfg.gw s.cfg.gh g = true) :
      Ran s .caseed (finish (endScan (markCaValid (setCur g (accept .caseed s)))))
  | advance {g : Grid} (hg : gridShape s.cfg.gw s.cfg.gh g = true) :
      Ran s .advance (finish (endScan (leaveCount (setCur g (setNxt g (accept .advance s))))))
  | rdcell {x y : Coord} {b : Bool} :
      Ran s (.rdcell x y) (finish (setRdData b (latchXY x y (accept .rdcell s))))
  | framePagesel {p : Byte} {u : State} (hu : Sent s u) (hseq : u.seq = s.seq) : Ran s (.framePagesel p) u
  | frameData {u : State} (hu : Sent s u) (hseq : u.seq = s.seq) : Ran s .frameData u
  | frameInit {u : State} (hu : Sent s u) (hseq : u.seq = s.seq) : Ran s .frameInit u

/-- What the pixel write answers (R90): it changes the framebuffer alone, and keeps its canonical form. -/
theorem writePixel_next {v : Bool} (h : writePixel v s = .next t) :
    ∃ m, t = setFb m s ∧ (Memory.wf s.fbBase s.cfg.n s.fb = true → Memory.wf s.fbBase s.cfg.n m = true) := by
  obtain ⟨old, -, h2⟩ := andThen_eq_next.mp h
  obtain ⟨hle, rfl⟩ := memWrite_eq_next.mp h2
  exact ⟨_, rfl, wf_writeAll hle⟩

/-- What SETPIX answers, in range or out of it (R90, R144). -/
theorem execSetpix_ran {x y : Coord} {v : Bool} (h : execSetpix x y v s = .next t) : Ran s (.setpix x y v) t := by
  unfold execSetpix at h
  simp only at h
  split at h
  · obtain ⟨u, h1, h2⟩ := andThen_eq_next.mp h
    obtain ⟨m, rfl, hm⟩ := writePixel_next h1
    cases h2
    exact .setpix (by simpa using hm)
  · cases h
    exact .setpix (m := (latchAdec x y (latchV v (latchXY x y (accept .setpix s)))).fb) (by simp)

theorem execRefresh_ran (h : execRefresh s = .next t) : Ran s .refresh t := by
  cases hr : s.txReady
  · rw [execRefresh, hr] at h
    cases h
    exact .refreshWaits hr
  · obtain ⟨u, hu, rfl⟩ := execRefresh_next hr h
    exact .refresh hu

theorem execInit_ran (h : execInit s = .next t) : Ran s .init t := by
  cases hr : s.txReady
  · rw [execInit, hr] at h
    cases h
    exact .initWaits hr
  · obtain ⟨u, hu, rfl⟩ := execInit_next hr h
    exact .init hu

theorem execFramePagesel_ran {p : Byte} (h : execFramePagesel p s = .next t) : Ran s (.framePagesel p) t := by
  cases h
  split
  · exact .framePagesel (sent_busSend (.inl (List.cons_ne_nil _ _))) rfl
  · exact .framePagesel (.refl s) rfl

theorem execFrameData_ran (h : execFrameData s = .next t) : Ran s .frameData t := by
  unfold execFrameData at h
  split at h
  · refine .frameData (sent_sendPage h) ?_
    obtain ⟨m, bytes, rfl, -⟩ := sendPage_next h
    rfl
  · cases h
    exact .frameData (.refl s) rfl

theorem execFrameInit_ran (h : execFrameInit s = .next t) : Ran s .frameInit t := by
  cases h
  split
  · exact .frameInit (sent_busSend (eq_or_ne s.cfg.initFrame []).symm) rfl
  · exact .frameInit (.refl s) rfl

/-- `exec` answers in no other way. -/
theorem exec_ran {i : Instr} (h : exec i s = .next t) : Ran s i t := by
  cases i with
  | clear => cases h; exact .clear
  | setpix x y v => exact execSetpix_ran h
  | refresh => exact execRefresh_ran h
  | init => exact execInit_ran h
  | caload => cases h; exact .caload (gridShape_gridOf _ _ _)
  | caseed => cases h; exact .caseed (gridShape_gridOf _ _ _)
  | advance => cases h; exact .advance (gridShape_nextGen _ _)
  | rdcell x y => cases h; exact .rdcell
  | framePagesel p => exact execFramePagesel_ran h
  | frameData => exact execFrameData_ran h
  | frameInit => exact execFrameInit_ran h

/-! ## The step while an operation is held, and at the reset pin -/

/-- The instruction of the frame at a sequencer position (R25, R61 to R63; log 15). -/
def frameInstr (q : Seq) : Instr :=
  match q.ph with
  | .initFrame => .frameInit
  | .cmd => .framePagesel (BitVec.ofNat 8 q.p)
  | .data => .frameData

/-- What goes out at a position is that position's instruction (R25). -/
theorem frameAtPosition_eq_exec (s : State) : frameAtPosition s = exec (frameInstr s.seq) s := by
  unfold frameAtPosition frameInstr
  cases s.seq.ph <;> rfl

/-- A frame leaves the sequencer at its position; `afterFrame` moves it on (R25). -/
theorem frameAtPosition_seq (h : frameAtPosition s = .next t) : t.seq = s.seq := by
  rw [frameAtPosition_eq_exec] at h
  have hran := exec_ran h
  unfold frameInstr at hran
  split at hran
  · cases hran with | frameInit hu hseq => exact hseq
  · cases hran with | framePagesel hu hseq => exact hseq
  · cases hran with | frameData hu hseq => exact hseq

/-- REFRESH or INIT stays at its frame, or the frame goes out and the sequencer moves on (R25, R177). -/
theorem resumeFrames_next (h : resumeFrames s = .next t) :
    t = s ∨ ∃ u, frameAtPosition s = .next u ∧ t = afterFrame u := by
  unfold resumeFrames at h
  split at h
  · obtain ⟨u, hu, ht⟩ := andThen_eq_next.mp h
    cases ht
    exact .inr ⟨u, hu, rfl⟩
  · cases h
    exact .inl rfl

/-- Every way an operation in progress goes on: it stays, it runs one instruction, or the frame at its position goes out and
the sequencer moves on. -/
theorem resumeOperation_next (h : resumeOperation s = .next t) :
    t = s ∨ (∃ i, exec i s = .next t) ∨ ∃ u, frameAtPosition s = .next u ∧ t = afterFrame u := by
  unfold resumeOperation at h
  split at h
  · cases h
    exact .inl rfl
  · exact (resumeFrames_next h).imp_right .inr
  · exact (resumeFrames_next h).imp_right .inr
  · exact .inr (.inl ⟨.clear, h⟩)
  · exact .inr (.inl ⟨.setpix _ _ _, h⟩)
  · exact .inr (.inl ⟨.caload, h⟩)
  · exact .inr (.inl ⟨.caseed, h⟩)
  · exact .inr (.inl ⟨.advance, h⟩)
  · exact .inr (.inl ⟨.rdcell _ _, h⟩)

/-- Where the sequencer goes after a frame, position by position (R25). -/
theorem afterFrame_cases (s : State) :
    (s.seq.ph = .initFrame ∧ afterFrame s = moveTo 0 .cmd (clearFb s)) ∨
      (s.seq.ph = .cmd ∧ afterFrame s = moveTo s.seq.p .data s) ∨
      (s.seq.ph = .data ∧ s.seq.p + 1 < s.cfg.np ∧ afterFrame s = moveTo (s.seq.p + 1) .cmd s) ∨
      (s.seq.ph = .data ∧ s.cfg.np ≤ s.seq.p + 1 ∧ afterFrame s = finish s) := by
  cases hph : s.seq.ph with
  | initFrame => exact .inl ⟨rfl, by rw [afterFrame, hph]⟩
  | cmd => exact .inr (.inl ⟨rfl, by rw [afterFrame, hph]⟩)
  | data =>
    rcases Nat.lt_or_ge (s.seq.p + 1) s.cfg.np with hp | hp
    · exact .inr (.inr (.inl ⟨rfl, hp, afterFrame_data_of_lt hph hp⟩))
    · exact .inr (.inr (.inr ⟨rfl, hp, afterFrame_data_of_last hph hp⟩))

/-- The reset pin at an operation boundary is the next step (R162). -/
theorem step_of_resetPin {rest : List HostAct} (hg : s.cfg.geometryLegal = true) (hb : s.busy = false)
    (hh : s.host = .resetPin :: rest) : step s = .next (assertReset rest (sampleTx s)) := by
  have hready : cmdReady (sampleTx s) = true := by simp [cmdReady, hb]
  rw [step, stepPorts, if_pos hg, if_pos hready]
  simp only [acceptCommand, sampleTx_host, hh]

/-! ## The invariant -/

/-- The part of the invariant about storage: the build, `FB`, `CUR`, `NXT` and `BUS`. -/
structure Stored (s : State) : Prop where
  cfgLegal : s.cfg.legal = true
  fbWf : Memory.wf s.fbBase s.cfg.n s.fb = true
  curShape : gridShape s.cfg.gw s.cfg.gh s.cur = true
  nxtShape : gridShape s.cfg.gw s.cfg.gh s.nxt = true
  busOk : ∀ e ∈ s.bus, e.addr = s.cfg.devAddr ∧ e.bytes ≠ []

/-- The part of the invariant about the sequencer: `BUSY` and `SEQ` (R24, R26). -/
structure Positioned (s : State) : Prop where
  busyIff : s.busy = true ↔ s.seq.op ≠ .idle
  opWaits : s.seq.op = .idle ∨ s.seq.op = .refresh ∨ s.seq.op = .init
  pageInRange : s.seq.op ≠ .idle → s.seq.ph ≠ .initFrame → s.seq.p < s.cfg.np
  initPhase : s.seq.op = .refresh → s.seq.ph ≠ .initFrame

theorem inv_iff : Inv s ↔ Stored s ∧ Positioned s where
  mp := fun h => ⟨⟨h.cfgLegal, h.fbWf, h.curShape, h.nxtShape, h.busOk⟩,
    ⟨h.busyIff, h.opWaits, h.pageInRange, h.initPhase⟩⟩
  mpr := fun ⟨h, q⟩ => ⟨h.cfgLegal, h.fbWf, h.curShape, h.nxtShape, q.busyIff, q.opWaits, q.pageInRange, q.initPhase,
    h.busOk⟩

theorem initFrame_ne_nil {c : Config} (h : c.legal = true) : c.initFrame ≠ [] := by
  intro he
  simp [Config.legal, Config.initFrameLegal, he] at h

/-- An admitted build has a page. -/
theorem np_pos {c : Config} (h : c.legal = true) : 0 < c.np := by
  simp only [Config.legal, Bool.and_eq_true] at h
  obtain ⟨-, -, -, -, -, hnp, -⟩ := geometry_facts h.1
  exact hnp

/-! ### Storage -/

/-- Storage's invariant reads the build, `FB` with what it reads as where nothing is listed, `CUR`, `NXT` and `BUS` alone. -/
theorem Stored.of_eq (h : Stored s) (hc : t.cfg = s.cfg) (hbase : t.fbBase = s.fbBase) (hfb : t.fb = s.fb)
    (hcur : t.cur = s.cur) (hnxt : t.nxt = s.nxt) (hbus : t.bus = s.bus) : Stored t where
  cfgLegal := by rw [hc]; exact h.cfgLegal
  fbWf := by rw [hbase, hc, hfb]; exact h.fbWf
  curShape := by rw [hc, hcur]; exact h.curShape
  nxtShape := by rw [hc, hnxt]; exact h.nxtShape
  busOk := by rw [hc, hbus]; exact h.busOk

theorem stored_accept (h : Stored s) (op : SeqOp) : Stored (accept op s) := h.of_eq rfl rfl rfl rfl rfl rfl

theorem stored_finish (h : Stored s) : Stored (finish s) := h.of_eq rfl rfl rfl rfl rfl rfl

theorem stored_moveTo (h : Stored s) (p : Nat) (ph : Phase) : Stored (moveTo p ph s) := h.of_eq rfl rfl rfl rfl rfl rfl

theorem stored_clearFb (h : Stored s) : Stored (clearFb s) := ⟨h.cfgLegal, wf_nil _, h.curShape, h.nxtShape, h.busOk⟩

/-- What only sends frames keeps storage good: its frames go to `DEV_ADDR`, and on an admitted build none is empty. -/
theorem Stored.sent (h : Stored s) (hs : Sent s t) : Stored t where
  cfgLegal := by rw [hs.cfg]; exact h.cfgLegal
  fbWf := by rw [hs.fbBase, hs.cfg]; exact hs.wf h.fbWf
  curShape := by rw [hs.cfg, hs.cur]; exact h.curShape
  nxtShape := by rw [hs.cfg, hs.nxt]; exact h.nxtShape
  busOk := by
    obtain ⟨new, hbus, hnew⟩ := hs.bus
    intro e he
    rw [hbus] at he
    rw [hs.cfg]
    rcases List.mem_append.mp he with hold | hn
    · exact h.busOk e hold
    · exact ⟨(hnew e hn).1, (hnew e hn).2.resolve_right (initFrame_ne_nil h.cfgLegal)⟩

/-- Every instruction keeps storage good. -/
theorem Stored.ran {i : Instr} (h : Stored s) (hr : Ran s i t) : Stored t := by
  cases hr with
  | clear => exact stored_finish (stored_clearFb (stored_accept h _))
  | setpix hm =>
    exact stored_finish
      ⟨by simpa using h.cfgLegal, by simpa using hm h.fbWf, by simpa using h.curShape, by simpa using h.nxtShape,
        by simpa using h.busOk⟩
  | refresh hu => exact stored_finish ((stored_accept h _).sent hu)
  | refreshWaits => exact stored_moveTo (stored_accept h _) _ _
  | init hu =>
    have hsend : Sent (accept .init s) (busSend s.cfg.initFrame (accept .init s)) :=
      sent_busSend (.inl (initFrame_ne_nil h.cfgLegal))
    exact stored_finish ((stored_clearFb ((stored_accept h _).sent hsend)).sent hu)
  | initWaits => exact stored_moveTo (stored_accept h _) _ _
  | caload hg | caseed hg | advance hg =>
    exact stored_finish ⟨h.cfgLegal, h.fbWf, hg, gridShape_gridOf _ _ _, h.busOk⟩
  | rdcell => exact h.of_eq rfl rfl rfl rfl rfl rfl
  | framePagesel hu | frameData hu | frameInit hu => exact h.sent hu

/-! ### The sequencer -/

theorem positioned_finish (s : State) : Positioned (finish s) where
  busyIff := by simp
  opWaits := .inl rfl
  pageInRange := fun h => absurd rfl h
  initPhase := fun h => by cases h

/-- The sequencer's invariant reads the build, `BUSY` and `SEQ` alone. -/
theorem Positioned.of_eq (h : Positioned s) (hc : t.cfg = s.cfg) (hb : t.busy = s.busy) (hq : t.seq = s.seq) :
    Positioned t where
  busyIff := by rw [hb, hq]; exact h.busyIff
  opWaits := by rw [hq]; exact h.opWaits
  pageInRange := by rw [hc, hq]; exact h.pageInRange
  initPhase := by rw [hq]; exact h.initPhase

/-- Moving to a frame of a page of the surface. -/
theorem Positioned.moveTo (h : Positioned s) {p : Nat} {ph : Phase} (hp : p < s.cfg.np) (hph : ph ≠ .initFrame) :
    Positioned (moveTo p ph s) :=
  ⟨h.busyIff, h.opWaits, fun _ _ => hp, fun _ => hph⟩

/-- Every instruction keeps the sequencer good, on a build with a page: a command ends idle or stands at its first frame, a
frame leaves the sequencer where it is. -/
theorem Positioned.ran {i : Instr} (h : Positioned s) (hnp : 0 < s.cfg.np) (hr : Ran s i t) : Positioned t := by
  cases hr with
  | clear | setpix | refresh | init | caload | caseed | advance | rdcell => exact positioned_finish _
  | refreshWaits => exact ⟨by simp, .inr (.inl rfl), fun _ _ => hnp, fun _ => by simp⟩
  | initWaits => exact ⟨by simp, .inr (.inr rfl), fun _ _ => hnp, fun h => by cases h⟩
  | framePagesel hu hseq | frameData hu hseq | frameInit hu hseq => exact h.of_eq hu.cfg hu.busy hseq

/-! ### The step -/

theorem inv_exec {i : Instr} (h : Inv s) (he : exec i s = .next t) : Inv t := by
  obtain ⟨hstore, hpos⟩ := inv_iff.mp h
  exact inv_iff.mpr ⟨hstore.ran (exec_ran he), hpos.ran (np_pos hstore.cfgLegal) (exec_ran he)⟩

theorem inv_sampleTx (h : Inv s) : Inv (sampleTx s) := by
  obtain ⟨hstore, hpos⟩ := inv_iff.mp h
  exact inv_iff.mpr
    ⟨hstore.of_eq (sampleTx_cfg s) (sampleTx_fbBase s) (sampleTx_fb s) (sampleTx_cur s) (sampleTx_nxt s) (sampleTx_bus s),
      hpos.of_eq (sampleTx_cfg s) (sampleTx_busy s) (sampleTx_seq s)⟩

theorem inv_takeOffer (h : Inv s) (o : Offer) (rest : List HostAct) : Inv (takeOffer o rest s) := by
  obtain ⟨hstore, hpos⟩ := inv_iff.mp h
  exact inv_iff.mpr ⟨hstore.of_eq rfl rfl rfl rfl rfl rfl, hpos.of_eq rfl rfl rfl⟩

/-- After the frame at its position a held operation stands at a frame again, or is finished (R25). -/
theorem inv_afterFrame (h : Inv s) (hop : s.seq.op ≠ .idle) : Inv (afterFrame s) := by
  obtain ⟨hstore, hpos⟩ := inv_iff.mp h
  rcases afterFrame_cases s with ⟨-, he⟩ | ⟨hph, he⟩ | ⟨-, hp, he⟩ | ⟨-, -, he⟩ <;> rw [he]
  · have hclear : Positioned (clearFb s) := hpos.of_eq rfl rfl rfl
    exact inv_iff.mpr ⟨stored_moveTo (stored_clearFb hstore) _ _, hclear.moveTo (np_pos h.cfgLegal) (by decide)⟩
  · have hp : s.seq.p < s.cfg.np := h.pageInRange hop (by rw [hph]; decide)
    exact inv_iff.mpr ⟨stored_moveTo hstore _ _, hpos.moveTo hp (by decide)⟩
  · exact inv_iff.mpr ⟨stored_moveTo hstore _ _, hpos.moveTo hp (by decide)⟩
  · exact inv_iff.mpr ⟨stored_finish hstore, positioned_finish s⟩

/-- An operation in progress keeps the invariant as it goes on. -/
theorem inv_resumeOperation (h : Inv s) (hb : s.busy = true) (hr : resumeOperation s = .next t) : Inv t := by
  rcases resumeOperation_next hr with rfl | ⟨i, hi⟩ | ⟨u, hu, rfl⟩
  · exact h
  · exact inv_exec h hi
  · have hop : u.seq.op ≠ .idle := by
      rw [frameAtPosition_seq hu]
      exact h.busyIff.mp hb
    rw [frameAtPosition_eq_exec] at hu
    exact inv_afterFrame (inv_exec h hu) hop

/-- The invariant holds right after a reset of an admitted build, whatever the ports then hold. -/
theorem inv_powerOn {c : Config} (h : c.legal = true) (n : Nat) : Inv (State.powerOn c n) where
  cfgLegal := h
  fbWf := wf_nil _
  curShape := gridShape_gridOf _ _ _
  nxtShape := gridShape_gridOf _ _ _
  busyIff := by simp [State.powerOn]
  opWaits := .inl rfl
  pageInRange := fun hop => absurd rfl hop
  initPhase := fun hop => by cases hop
  busOk := fun _ he => by cases he

theorem inv_assertReset (h : Inv s) (rest : List HostAct) : Inv (assertReset rest s) := by
  obtain ⟨hstore, hpos⟩ := inv_iff.mp (inv_powerOn h.cfgLegal s.fresh)
  exact inv_iff.mpr ⟨hstore.of_eq rfl rfl rfl rfl rfl rfl, hpos.of_eq rfl rfl rfl⟩

/-- The default build is an admitted one, whatever its open bytes (R7, R8, R63; log 8). -/
theorem default_legal : Config.default.legal = true := by
  simp [Config.legal, Config.geometryLegal, Config.initFrameLegal, Config.default, Config.np, Config.initFrameOpen]

/-! ## What every instruction does to single fields -/

theorem exec_cfg {i : Instr} (h : exec i s = .next t) : t.cfg = s.cfg := by
  cases exec_ran h with
  | clear | setpix | refreshWaits | initWaits | caload | caseed | advance | rdcell => simp
  | refresh hu | init hu | framePagesel hu | frameData hu | frameInit hu => simp [hu.cfg]

theorem afterFrame_cfg (s : State) : (afterFrame s).cfg = s.cfg := by
  rcases afterFrame_cases s with ⟨-, he⟩ | ⟨-, he⟩ | ⟨-, -, he⟩ | ⟨-, -, he⟩ <;> rw [he] <;> rfl

theorem resumeOperation_cfg (h : resumeOperation s = .next t) : t.cfg = s.cfg := by
  rcases resumeOperation_next h with rfl | ⟨i, hi⟩ | ⟨u, hu, rfl⟩
  · rfl
  · exact exec_cfg hi
  · rw [frameAtPosition_eq_exec] at hu
    rw [afterFrame_cfg, exec_cfg hu]

/-- What only sends grows `BUS` by frames to `DEV_ADDR`. -/
theorem Sent.busGrows (h : Sent s t) : ∃ new, t.bus = s.bus ++ new ∧ ∀ e ∈ new, e.addr = s.cfg.devAddr := by
  obtain ⟨new, hbus, hnew⟩ := h.bus
  exact ⟨new, hbus, fun e he => (hnew e he).1⟩

theorem exec_busGrows {i : Instr} (h : exec i s = .next t) :
    ∃ new, t.bus = s.bus ++ new ∧ ∀ e ∈ new, e.addr = s.cfg.devAddr := by
  cases exec_ran h with
  | clear | setpix | refreshWaits | initWaits | caload | caseed | advance | rdcell => exact ⟨[], by simp⟩
  | refresh hu => exact hu.busGrows
  | init hu =>
    obtain ⟨new, hbus, hnew⟩ := hu.busGrows
    exact ⟨⟨s.cfg.devAddr, s.cfg.initFrame⟩ :: new, by simp [hbus], List.forall_mem_cons.mpr ⟨rfl, hnew⟩⟩
  | framePagesel hu | frameData hu | frameInit hu => exact hu.busGrows

theorem exec_fbValid {i : Instr} (hr : s.txReady = true) (h : exec i s = .next t) :
    t.fbValid = true ↔ s.fbValid = true ∨ i = .clear ∨ i = .init := by
  cases exec_ran h with
  | refreshWaits hw | initWaits hw => exact absurd hr (by simp [hw])
  | clear | setpix | caload | caseed | advance | rdcell => simp
  | refresh hu | init hu | framePagesel hu | frameData hu | frameInit hu => simp [hu.fbValid]

theorem exec_caValid {i : Instr} (h : exec i s = .next t) :
    t.caValid = true ↔ s.caValid = true ∨ i = .caload ∨ i = .caseed := by
  cases exec_ran h with
  | clear | setpix | refreshWaits | initWaits | caload | caseed | advance | rdcell => simp
  | refresh hu | init hu | framePagesel hu | frameData hu | frameInit hu => simp [hu.caValid]

/-- A command on a ready transport is finished when it answers (R26). -/
theorem exec_finished {w : Word} {i : Instr} (hd : decodeCmd w = .ok i) (hr : s.txReady = true)
    (h : exec i s = .next t) : ∃ u, t = finish u := by
  cases exec_ran h with
  | clear | setpix | refresh | init | caload | caseed | advance | rdcell => exact ⟨_, rfl⟩
  | refreshWaits hw | initWaits hw => exact absurd hr (by simp [hw])
  | framePagesel | frameData | frameInit => simpa using decodeCmd_command hd

theorem statusWord_getLsbD (s : State) {n k : Nat} (hk : k < n) :
    (statusWord n s).getLsbD k = (decide (k = 0) && s.busy) := by
  cases hb : s.busy <;> simp [statusWord, hb, hk]

theorem statusWord_of_idle (n : Nat) (h : s.busy = false) : statusWord n s = 0 := by simp [statusWord, h]

/-- Only RDCELL moves `RD_DATA` or the mark that it counts (R33; log 28). -/
theorem exec_rdData_of_ne {i : Instr} (hi : ∀ x y, i ≠ .rdcell x y) (h : exec i s = .next t) :
    t.rdData = s.rdData ∧ t.rdIssued = s.rdIssued := by
  cases exec_ran h with
  | rdcell => exact absurd rfl (hi _ _)
  | clear | setpix | refreshWaits | initWaits | caload | caseed | advance => simp
  | refresh hu | init hu | framePagesel hu | frameData hu | frameInit hu => simp [hu.rdData, hu.rdIssued]

theorem exec_rdcell_rdIssued {x y : Coord} (h : exec (.rdcell x y) s = .next t) : t.rdIssued = true := by
  cases exec_ran h with
  | rdcell => rfl

/-! ## The reserved slot -/

/-- A page's events read the framebuffer from index 1 on: the column bytes of page `p` start after its tag slot (R41, R99). -/
theorem pageEvents_congr (hc : t.cfg = s.cfg) (h : ∀ a, 1 ≤ a → fbByte t a = fbByte s a) (p : Nat) :
    pageEvents t p = pageEvents s p := by
  have hcols : pageCols t p = pageCols s p := by
    rw [pageCols, pageCols, hc]
    exact List.map_congr_left fun k _ => h _ (by omega)
  rw [pageEvents, pageEvents, hcols, hc]

/-- `BUS` after REFRESH (R103): the events of every page while the transport is ready, nothing new while it is not. -/
theorem execRefresh_bus (h : execRefresh s = .next t) :
    t.bus = s.bus ++ if s.txReady then (allPages s.cfg).flatMap (pageEvents s) else [] := by
  cases hr : s.txReady
  · rw [execRefresh, hr] at h
    cases h
    simp
  · obtain ⟨u, hu, hbus, -⟩ := sendPages_of_lt (s := accept .refresh s) (allPages s.cfg) (by simp [allPages])
    rw [execRefresh, if_pos hr, hu] at h
    cases h
    exact hbus

/-! ## The obligations -/

/-- Settles O43: storage and sequencer apart, through every way a step answers. -/
theorem stepKeepsInvariant : Obligations.StepKeepsInvariant := by
  intro s t h hstep
  have hs := inv_sampleTx h
  obtain ⟨-, ⟨-, -, rfl⟩ | ⟨rest, -, -, rfl⟩ | ⟨o, rest, i, -, -, -, he⟩ | ⟨hb, hr⟩⟩ := step_next hstep
  · exact hs
  · exact inv_assertReset hs rest
  · exact inv_exec (inv_takeOffer hs o rest) he
  · exact inv_resumeOperation hs (by simpa using hb) hr

/-- Settles O29: both runs send the events of the same pages, and no page's events read `FB[0]`. -/
theorem reservedSlotNeverShown : Obligations.ReservedSlotNeverShown := by
  intro s s' t t' hc hb hr hfb h h'
  have hev : pageEvents s' = pageEvents s := funext (pageEvents_congr hc hfb)
  rw [execRefresh_bus h, execRefresh_bus h', hc, hb, hr, hev]

/-- Settles O45: no way a step answers touches the build. -/
theorem buildIsConstant : Obligations.BuildIsConstant := by
  intro s t hstep
  obtain ⟨-, ⟨-, -, rfl⟩ | ⟨rest, -, -, rfl⟩ | ⟨o, rest, i, -, -, -, he⟩ | ⟨-, hr⟩⟩ := step_next hstep
  · exact sampleTx_cfg s
  · exact sampleTx_cfg s
  · exact (exec_cfg he).trans (sampleTx_cfg s)
  · exact (resumeOperation_cfg hr).trans (sampleTx_cfg s)

/-- Settles O46: the frames an instruction sends stand at the end of `BUS`. -/
theorem busOnlyGrows : Obligations.BusOnlyGrows := fun _ _ _ h => exec_busGrows h

/-- Settles O48: each mark, instruction by instruction. -/
theorem validityMarks : Obligations.ValidityMarks := fun _ _ _ hr h => ⟨exec_fbValid hr h, exec_caValid h⟩

/-- Settles O49: every command on a ready transport answers through `finish`. -/
theorem busyFallsWhenFinished : Obligations.BusyFallsWhenFinished := by
  refine ⟨fun c w i s t hd hr h => ?_, fun s n k hk => statusWord_getLsbD s hk⟩
  obtain ⟨u, rfl⟩ := exec_finished hd hr h
  exact ⟨rfl, rfl, rfl, fun n => statusWord_of_idle n rfl⟩

/-- Settles O58: RDCELL sets the mark with the register, the others touch neither, and reset clears the mark. -/
theorem rdDataCountsOnceIssued : Obligations.RdDataCountsOnceIssued := by
  refine ⟨fun i s t h => ⟨?_, fun hi => ?_⟩, fun s rest hg hb hh => ⟨_, step_of_resetPin hg hb hh, rfl⟩, rfl⟩
  · rintro ⟨x, y, rfl⟩
    exact if_pos (exec_rdcell_rdIssued h)
  · obtain ⟨hdata, hissued⟩ := exec_rdData_of_ne hi h
    exact ⟨hdata, by simp only [observe, hdata, hissued]⟩

/-- Settles O1: the reset pin's step, and the default build at power-on. -/
theorem resetLeavesIdleState : Obligations.ResetLeavesIdleState := by
  refine ⟨fun s rest hg hb hh => ⟨_, step_of_resetPin hg hb hh, rfl, rfl, rfl, rfl, rfl, sampleTx_cfg s, rfl, ?_, ?_⟩,
    rfl, rfl, rfl, rfl, rfl, rfl, rfl, rfl, rfl, rfl⟩
  · intro a
    rw [← sampleTx_fresh s]
    rfl
  · intro x y hx hy
    rw [← sampleTx_fresh s]
    rw [← sampleTx_cfg s] at hx hy
    exact cell_gridOf_of_lt _ hx hy

/-- Settles O2: the default build is admitted, and power-on of an admitted build meets the invariant. -/
theorem invariantAtReset : Obligations.InvariantAtReset := inv_powerOn default_legal 0

/-- Settles O4: the held operation's step is the frame at its position, which is that position's instruction. -/
theorem stepSendsHeldFrame : Obligations.StepSendsHeldFrame := by
  intro s hg hb ho hr
  rw [step_of_held hg hb ho, resumeFrames, if_pos hr, frameAtPosition_eq_exec, sampleTx_seq]
  rfl

end Sys2Proof.Machine
end

section
/-! PROOFS. The memory's statements: the beats of the TX port (O14), the laws of SETPIX (O20), a pixel's place on the wire (O30),
and that no step faults (O44). SETPIX is one update of the framebuffer's bytes, so its laws are those of `withBit` on one byte
and of `Function.update` on the others. -/

namespace Sys2Proof.Machine

open Sys2Proof.Safety

variable {s : State}

/-! ## The beats of a frame -/

/-- A beat of a frame (R70): the address, the byte at its position, and the two marks of the ends. -/
theorem beatsFrom_getElem? (addr : Byte) (first : Bool) (bytes : List Byte) (k : Nat) :
    (beatsFrom addr first bytes)[k]? =
      bytes[k]?.map fun d => ⟨addr, d, decide (k = 0) && first, decide (k + 1 = bytes.length)⟩ := by
  induction bytes generalizing first k with
  | nil => rfl
  | cons b rest ih =>
    cases k with
    | zero => cases rest <;> simp [beatsFrom]
    | succ k => simp [beatsFrom, ih]

theorem beatsFrom_length (addr : Byte) (first : Bool) (bytes : List Byte) :
    (beatsFrom addr first bytes).length = bytes.length := by
  induction bytes generalizing first with
  | nil => rfl
  | cons b rest ih => simp [beatsFrom, ih]

/-- The beats of a frame, taken after the bytes `acc` of the frame in progress, complete one event (R70). -/
theorem eventsOfBeats_beatsFrom (acc : List Byte) (addr : Byte) (first : Bool) {bytes : List Byte} (h : bytes ≠ [])
    (beats : List Beat) :
    eventsOfBeats acc (beatsFrom addr first bytes ++ beats) =
      ⟨addr, (if first then [] else acc) ++ bytes⟩ :: eventsOfBeats [] beats := by
  induction bytes generalizing acc first with
  | nil => exact absurd rfl h
  | cons b rest ih =>
    cases rest with
    | nil => simp [beatsFrom, eventsOfBeats, takeBeat]
    | cons c rest =>
      rw [beatsFrom, List.cons_append, eventsOfBeats, if_neg (by simp), ih _ _ (List.cons_ne_nil _ _)]
      simp [takeBeat]

/-- The beats of non-empty frames give back the frames (R70). -/
theorem eventsOfBeats_txBeats {bus : List Event} (h : ∀ e ∈ bus, e.bytes ≠ []) :
    eventsOfBeats [] (txBeats bus) = bus := by
  induction bus with
  | nil => rfl
  | cons e rest ih =>
    obtain ⟨he, hrest⟩ := List.forall_mem_cons.mp h
    have hbeats : txBeats (e :: rest) = beatsFrom e.addr true e.bytes ++ txBeats rest := rfl
    rw [hbeats, eventsOfBeats_beatsFrom _ _ _ he, ih hrest]
    rfl

/-! ## ADEC and the pixel's bit -/

/-- ADEC's answer, with the bit index as a number (R84). -/
theorem adec_eq_some {c : Config} {x y : Coord} {idx : Nat} {bit : BitVec 3} (h : adec c x y = some (idx, bit)) :
    x.toNat < c.w ∧ y.toNat < c.h ∧ idx = y.toNat / 8 * c.w + x.toNat + 1 ∧ bit.toNat = y.toNat % 8 := by
  unfold adec at h
  split at h
  · next hr =>
    cases h
    exact ⟨hr.1, hr.2, rfl, by rw [BitVec.toNat_ofNat]; omega⟩
  · cases h

/-- Pixels ADEC gives one index and one bit are one pixel (R87): the index less 1 has the quotient `y / 8` and the remainder
`x` by `W`. -/
theorem adec_injective {c : Config} {x y x' y' : Coord} {idx : Nat} {bit : BitVec 3} (h : adec c x y = some (idx, bit))
    (h' : adec c x' y' = some (idx, bit)) : x = x' ∧ y = y' := by
  obtain ⟨hx, -, hi, hb⟩ := adec_eq_some h
  obtain ⟨hx', -, hi', hb'⟩ := adec_eq_some h'
  have hi : x.toNat + c.w * (y.toNat / 8) = x'.toNat + c.w * (y'.toNat / 8) := by
    rw [Nat.mul_comm, Nat.mul_comm c.w]
    omega
  have hcol : x.toNat = x'.toNat := by
    simpa [Nat.mod_eq_of_lt, hx, hx'] using congrArg (· % c.w) hi
  have hpage : y.toNat / 8 = y'.toNat / 8 := Nat.eq_of_mul_eq_mul_left (by omega : 0 < c.w) (by omega)
  exact ⟨BitVec.eq_of_toNat_eq hcol, BitVec.eq_of_toNat_eq (by omega)⟩

/-- Of two writes of one bit the later one stays (R92). -/
theorem withBit_withBit (old : Byte) (bit : BitVec 3) (v v' : Bool) :
    withBit (withBit old bit v) bit v' = withBit old bit v' := by
  refine BitVec.eq_of_getLsbD_eq fun k hk => ?_
  simp only [withBit_getLsbD _ _ _ hk]
  split <;> rfl

/-- Writes of two bits of one byte commute (R92). -/
theorem withBit_comm (old : Byte) {bit bit' : BitVec 3} (v v' : Bool) (h : bit ≠ bit') :
    withBit (withBit old bit v) bit' v' = withBit (withBit old bit' v') bit v := by
  have hn : bit.toNat ≠ bit'.toNat := fun e => h (BitVec.eq_of_toNat_eq e)
  refine BitVec.eq_of_getLsbD_eq fun k hk => ?_
  simp only [withBit_getLsbD _ _ _ hk]
  split
  · next hk' => rw [if_neg fun e => hn (e.symm.trans hk')]
  · rfl

/-- Writing a bit's own value changes nothing, and nothing else does (R92). -/
theorem withBit_eq_self_iff (old : Byte) (bit : BitVec 3) (v : Bool) :
    withBit old bit v = old ↔ old.getLsbD bit.toNat = v where
  mp := fun h => by
    rw [← h, withBit_getLsbD _ _ _ bit.isLt, if_pos rfl]
  mpr := fun h => by
    refine BitVec.eq_of_getLsbD_eq fun k hk => ?_
    rw [withBit_getLsbD _ _ _ hk]
    split
    · next e => rw [e, h]
    · rfl

/-! ## SETPIX on the framebuffer's bytes -/

/-- The framebuffer's bytes `f` after the pixel write of bit `bit` of byte `idx` (R90). -/
def writeBit (idx : Nat) (bit : BitVec 3) (v : Bool) (f : Nat → Byte) : Nat → Byte :=
  Function.update f idx (withBit (f idx) bit v)

theorem writeBit_same (idx : Nat) (bit : BitVec 3) (v : Bool) (f : Nat → Byte) :
    writeBit idx bit v f idx = withBit (f idx) bit v := Function.update_self _ _ _

theorem writeBit_other {idx a : Nat} (bit : BitVec 3) (v : Bool) (f : Nat → Byte) (h : a ≠ idx) :
    writeBit idx bit v f a = f a := Function.update_of_ne h _ _

/-- Of two writes of one pixel the later one stays. -/
theorem writeBit_writeBit (idx : Nat) (bit : BitVec 3) (v v' : Bool) (f : Nat → Byte) :
    writeBit idx bit v' (writeBit idx bit v f) = writeBit idx bit v' f := by
  rw [writeBit, writeBit_same, withBit_withBit]
  exact Function.update_idem _ _ _

/-- Writes of two pixels commute, in one byte or in two. -/
theorem writeBit_comm {idx idx' : Nat} {bit bit' : BitVec 3} (v v' : Bool) (f : Nat → Byte)
    (h : ¬ (idx = idx' ∧ bit = bit')) :
    writeBit idx' bit' v' (writeBit idx bit v f) = writeBit idx bit v (writeBit idx' bit' v' f) := by
  by_cases hi : idx = idx'
  · subst hi
    simp only [writeBit, Function.update_self, Function.update_idem]
    rw [withBit_comm _ _ _ fun hb => h ⟨rfl, hb⟩]
  · simp only [writeBit, Function.update_of_ne hi, Function.update_of_ne (Ne.symm hi)]
    exact Function.update_comm hi _ _ _

/-- SETPIX in range completes and writes the one bit ADEC places (R90). -/
theorem exec_setpix_of_some {x y : Coord} {idx : Nat} {bit : BitVec 3} (v : Bool) (hg : s.cfg.geometryLegal = true)
    (h : adec s.cfg x y = some (idx, bit)) :
    ∃ t, exec (.setpix x y v) s = .next t ∧ t.cfg = s.cfg ∧ fbByte t = writeBit idx bit v (fbByte s) := by
  refine ⟨_, execSetpix_of_some h (adec_le hg h).2, rfl, funext fun a => ?_⟩
  exact (fbByte_write_one idx a _).trans (Function.update_apply (fbByte s) idx _ a).symm

/-- Two SETPIX in range write their two bits one after the other. -/
theorem exec_setpix_twice {x y x' y' : Coord} {idx idx' : Nat} {bit bit' : BitVec 3} (v v' : Bool)
    (hg : s.cfg.geometryLegal = true) (h : adec s.cfg x y = some (idx, bit))
    (h' : adec s.cfg x' y' = some (idx', bit')) :
    ∃ t u, exec (.setpix x y v) s = .next t ∧ exec (.setpix x' y' v') t = .next u ∧
      fbByte t = writeBit idx bit v (fbByte s) ∧
      fbByte u = writeBit idx' bit' v' (writeBit idx bit v (fbByte s)) := by
  obtain ⟨t, ht, hc, hbt⟩ := exec_setpix_of_some v hg h
  rw [← hc] at hg h'
  obtain ⟨u, hu, -, hbu⟩ := exec_setpix_of_some v' hg h'
  exact ⟨t, u, ht, hu, hbt, by rw [hbu, hbt]⟩

/-! ## A page's data frame in a REFRESH -/

/-- Of the two events of each page, the one at an odd place is the page's data frame (R98, R103). -/
theorem pageEvents_flatMap_getElem?_odd (s : State) (pages : List Nat) (k : Nat) :
    (pages.flatMap (pageEvents s))[2 * k + 1]? =
      pages[k]?.map fun p => ⟨s.cfg.devAddr, dataFrame (pageCols s p)⟩ := by
  induction pages generalizing k with
  | nil => rfl
  | cons p rest ih =>
    cases k with
    | zero => rfl
    | succ k => exact ih k

/-- Column `x` of a page travels behind the tag (R62, R99). -/
theorem dataFrame_pageCols_getElem? {p x : Nat} (hx : x < s.cfg.w) :
    (dataFrame (pageCols s p))[x + 1]? = some (fbByte s (p * s.cfg.w + 1 + x)) := by
  rw [dataFrame, List.getElem?_cons_succ, List.getElem?_eq_getElem (by rwa [pageCols_length])]
  exact congrArg some (fbBytes_getElem _)

/-! ## Every operation answers -/

theorem geometryLegal_of_legal {c : Config} (h : c.legal = true) : c.geometryLegal = true := by
  simp only [Config.legal, Bool.and_eq_true] at h
  exact h.1

/-- SETPIX answers on an admitted geometry, in range or out of it (R142, R144). -/
theorem execSetpix_answers (x y : Coord) (v : Bool) (hg : s.cfg.geometryLegal = true) :
    ∃ t, execSetpix x y v s = .next t := by
  cases h : adec s.cfg x y with
  | none => exact ⟨_, execSetpix_of_none h⟩
  | some p => exact ⟨_, execSetpix_of_some h (adec_le hg h).2⟩

/-- Every command word the decoder accepts answers on an admitted geometry (R48, R142). -/
theorem exec_command_answers {w : Word} {i : Instr} (hd : decodeCmd w = .ok i) (hg : s.cfg.geometryLegal = true) :
    ∃ t, exec i s = .next t := by
  obtain rfl | ⟨x, y, v, rfl⟩ | rfl | rfl | rfl | rfl | rfl | ⟨x, y, rfl⟩ := decodeCmd_command hd
  · exact ⟨_, rfl⟩
  · exact execSetpix_answers x y v hg
  · cases hr : s.txReady with
    | true => exact execRefresh_answers hr
    | false => exact ⟨_, by rw [exec, execRefresh, hr]; rfl⟩
  · cases hr : s.txReady with
    | true => exact execInit_answers hr
    | false => exact ⟨_, by rw [exec, execInit, hr]; rfl⟩
  all_goals exact ⟨_, rfl⟩

/-- A held operation goes on from its position, whose page is one of the surface (R177). -/
theorem resumeFrames_answers (hp : s.seq.ph = .data → s.seq.p < s.cfg.np) : ∃ t, resumeFrames s = .next t := by
  cases hr : s.txReady with
  | true =>
    obtain ⟨u, hu, -⟩ := frameAtPosition_of_ready hr hp
    exact ⟨afterFrame u, by rw [resumeFrames, if_pos hr, hu, andThen_next]⟩
  | false => exact ⟨s, by rw [resumeFrames, hr]; rfl⟩

/-- From the invariant the operation in progress answers: only REFRESH and INIT are ever in progress. -/
theorem resumeOperation_answers (h : Inv s) : ∃ t, resumeOperation s = .next t := by
  unfold resumeOperation
  rcases h.opWaits with ho | ho | ho <;> rw [ho]
  · exact ⟨s, rfl⟩
  all_goals
    exact resumeFrames_answers fun hph => h.pageInRange (by rw [ho]; decide) (by rw [hph]; decide)

/-! ## The obligations -/

/-- Settles O14: frame by frame for the events, position by position for a beat. -/
theorem txBeatsCarryFrames : Obligations.TxBeatsCarryFrames := by
  refine ⟨fun bus h => eventsOfBeats_txBeats h, fun e => ⟨beatsFrom_length _ _ _, fun k b hb => ?_⟩⟩
  rw [eventBeats, beatsFrom_getElem?] at hb
  obtain ⟨d, hd, rfl⟩ := Option.map_eq_some_iff.mp hb
  exact ⟨rfl, hd, by simp, by simp⟩

/-- Settles O20: two SETPIX are two updates of the bytes; those of one pixel collapse, those of two pixels commute, since ADEC
places them at different bits. -/
theorem setpixLaws : Obligations.SetpixLaws := by
  intro s x y idx bit hg h
  refine ⟨fun v => ?_, ?_, fun x' y' v v' idx' bit' h' hne => ?_⟩
  · obtain ⟨t, u, ht, hu, hbt, hbu⟩ := exec_setpix_twice v v hg h h
    exact ⟨t, u, ht, hu, fun a => by rw [hbu, hbt, writeBit_writeBit]⟩
  · obtain ⟨t, u, ht, hu, -, hbu⟩ := exec_setpix_twice true false hg h h
    rw [writeBit_writeBit] at hbu
    have hidx : fbByte u idx = withBit (fbByte s idx) bit false := by rw [hbu, writeBit_same]
    refine ⟨t, u, ht, hu, fun a ha => ?_, fun k hk => ?_, ?_⟩
    · rw [hbu, writeBit_other _ _ _ ha]
    · rw [hidx, withBit_getLsbD _ _ _ hk]
    · rw [hidx, withBit_eq_self_iff]
  · obtain ⟨t1, t2, ht1, ht2, -, hbt⟩ := exec_setpix_twice v v' hg h h'
    obtain ⟨u1, u2, hu1, hu2, -, hbu⟩ := exec_setpix_twice v' v hg h' h
    have hplaces : ¬ (idx = idx' ∧ bit = bit') := by
      rintro ⟨rfl, rfl⟩
      obtain ⟨hx, hy⟩ := adec_injective h h'
      exact hne.elim (absurd hx) (absurd hy)
    exact ⟨t1, t2, u1, u2, ht1, ht2, hu1, hu2, fun a => by rw [hbt, hbu, writeBit_comm _ _ _ hplaces]⟩

/-- Settles O30: the data frame of page `y / 8`, and column `x` in it. -/
theorem pixelPositionOnWire : Obligations.PixelPositionOnWire := by
  intro s x y idx bit hg hr h
  obtain ⟨hx, hy, rfl, hbit⟩ := adec_eq_some h
  obtain ⟨-, -, -, -, hnp, -⟩ := geometry_facts hg
  have hpage : y.toNat / 8 < s.cfg.np := by omega
  obtain ⟨t, ht⟩ := execRefresh_answers hr
  have hbus := execRefresh_bus ht
  rw [hr, if_pos rfl] at hbus
  refine ⟨t, _, ⟨s.cfg.devAddr, dataFrame (pageCols s (y.toNat / 8))⟩, _, ht, hbus, ?_,
    dataFrame_pageCols_getElem? hx, ?_⟩
  · rw [pageEvents_flatMap_getElem?_odd, allPages, List.getElem?_range hpage, Option.map_some]
  · rw [hbit, Nat.add_right_comm]

/-- Settles O44: an offered command answers, and so does the operation in progress. -/
theorem noStepFaults : Obligations.NoStepFaults := by
  intro s h r hf
  have hs := inv_sampleTx h
  rcases step_fault hf with ⟨o, rest, i, -, hd, he⟩ | ⟨-, he⟩
  · have hg := geometryLegal_of_legal (inv_takeOffer hs o rest).cfgLegal
    obtain ⟨t, ht⟩ := exec_command_answers hd hg
    cases ht.symm.trans he
  · obtain ⟨t, ht⟩ := resumeOperation_answers hs
    cases ht.symm.trans he

end Sys2Proof.Machine
end

section
/-! PROOFS. The encoding's statements: the two directions of the decoder (O11, O12), words without a meaning (O8, O9), samples
and the page-select byte (O10, O13), the grid literal and CALOAD (O42, O37), what waits for the transport or stands on its
port (O5, O26, O57), the initialization frame (O25) and SETPIX out of range (O19). The decoder tests which fields of a word
are 0, so the way back to the word and the refusal of a reserved bit both rest on how a field splits into two. -/

namespace Sys2Proof

variable {c : Config} {cols : List Byte} {w : Word} {i : Instr}

/-! ## The fields of a command word -/

/-- A field is 0 where every bit of it is. -/
theorem extractLsb'_eq_zero_iff {start n : Nat} :
    w.extractLsb' start n = 0#n ↔ ∀ k < n, w.getLsbD (start + k) = false := by
  constructor
  · intro h k hk
    have hbit := congrArg (BitVec.getLsbD · k) h
    simpa [hk] using hbit
  · intro h
    ext k hk
    simpa using h k hk

/-- A field is 0 where its lower and its upper part are. -/
theorem extractLsb'_add_eq_zero_iff {start m n : Nat} :
    w.extractLsb' start (m + n) = 0#(m + n) ↔ w.extractLsb' start m = 0#m ∧ w.extractLsb' (start + m) n = 0#n := by
  simp only [extractLsb'_eq_zero_iff]
  constructor
  · exact fun h => ⟨fun k hk => h k (by omega), fun k hk => by rw [Nat.add_assoc]; exact h (m + k) (by omega)⟩
  · rintro ⟨hlow, hhigh⟩ k hk
    rcases Nat.lt_or_ge k m with hkm | hkm
    · exact hlow k hkm
    · have hbit := hhigh (k - m) (by omega)
      rwa [show start + m + (k - m) = start + k by omega] at hbit

/-- The bits 27:16 of a word, `v` the lowest of them (R66). -/
theorem rsvV_eq_zero_iff : w.extractLsb' 16 12 = 0#12 ↔ cmdV w = false ∧ w.extractLsb' 17 11 = 0#11 := by
  have hv : w.extractLsb' 16 1 = 0#1 ↔ cmdV w = false := by
    rw [extractLsb'_eq_zero_iff]
    simp [cmdV]
  rw [← hv]
  exact extractLsb'_add_eq_zero_iff (start := 16) (m := 1) (n := 11)

/-- The bits 27:0 of a word: the operands, and the reserved field (R66). -/
theorem low_eq_zero_iff :
    w.extractLsb' 0 28 = 0#28 ↔ w.extractLsb' 0 16 = 0#16 ∧ cmdV w = false ∧ w.extractLsb' 17 11 = 0#11 := by
  rw [← rsvV_eq_zero_iff]
  exact extractLsb'_add_eq_zero_iff (start := 0) (m := 16) (n := 12)

/-- A word without operands is its opcode composed with zeros (R66). -/
theorem commandWord_cmdOpc_of_low (h : w.extractLsb' 0 28 = 0#28) :
    commandWord (cmdOpc w) false 0#8 0#8 = w := by
  obtain ⟨hxy, hv, hrsv⟩ := low_eq_zero_iff.mp h
  obtain ⟨hx, hy⟩ : cmdX w = 0#8 ∧ cmdY w = 0#8 := extractLsb'_add_eq_zero_iff.mp hxy
  have hw := commandWord_of_fields hrsv
  rwa [hv, hx, hy] at hw

/-! ## Command words, both ways -/

theorem decodePlain_eq_ok {j : Instr} : decodePlain w i = .ok j ↔ w.extractLsb' 0 28 = 0#28 ∧ i = j := by
  unfold decodePlain
  split <;> simp [*]

/-- A word read as a command without operands is that command's code, where its opcode is the one in the code (R66, R72). -/
theorem encode_of_decodePlain {j : Instr} (hi : encode c cols i = .cmd (commandWord (cmdOpc w) false 0#8 0#8))
    (h : decodePlain w i = .ok j) : encode c cols j = .cmd w := by
  obtain ⟨hlow, rfl⟩ := decodePlain_eq_ok.mp h
  rw [hi, commandWord_cmdOpc_of_low hlow]

/-- A word that decodes is the code of what it is read as (R66 to R72). -/
theorem encode_of_decodeCmd (h : decodeCmd w = .ok i) : encode c cols i = .cmd w := by
  unfold decodeCmd at h
  split_ifs at h with hclear hsetpix hrsv hrefresh hinit hcaload hcaseed hadvance hrdcell hrsvV
  · exact encode_of_decodePlain (by rw [hclear]; rfl) h
  · cases h
    have hw := commandWord_of_fields hrsv
    rw [hsetpix] at hw
    exact congrArg Code.cmd hw
  · exact encode_of_decodePlain (by rw [hrefresh]; rfl) h
  · exact encode_of_decodePlain (by rw [hinit]; rfl) h
  · exact encode_of_decodePlain (by rw [hcaload]; rfl) h
  · exact encode_of_decodePlain (by rw [hcaseed]; rfl) h
  · exact encode_of_decodePlain (by rw [hadvance]; rfl) h
  · cases h
    obtain ⟨hv, hrsv⟩ := rsvV_eq_zero_iff.mp hrsvV
    have hw := commandWord_of_fields hrsv
    rw [hrdcell, hv] at hw
    exact congrArg Code.cmd hw

/-- The code of a command decodes to it (R66 to R72). -/
theorem decodeCmd_of_encode (h : encode c cols i = .cmd w) : decodeCmd w = .ok i := by
  cases i with
  | framePagesel p => cases h
  | frameData => cases h
  | frameInit => cases h
  | setpix x y v => cases h; exact Machine.decodeCmd_setpix x y v
  | rdcell x y => cases h; exact Machine.decodeCmd_rdcell x y
  | _ => cases h; simp [decodeCmd, decodePlain]

/-! ## Words without a meaning -/

/-- A reserved opcode rejects the word, whatever its other bits (R71). -/
theorem decodeCmd_reservedOpcode (h : cmdOpc w ∈ [0x0#4, 0x5#4, 0x6#4, 0x7#4, 0xC#4, 0xD#4, 0xE#4, 0xF#4]) :
    decodeCmd w = .error (.reservedOpcode (cmdOpc w)) := by
  have hne : ∀ o ∈ [0x1#4, 0x2#4, 0x3#4, 0x4#4, 0x8#4, 0x9#4, 0xA#4, 0xB#4], cmdOpc w ≠ o := by
    generalize cmdOpc w = opc at h
    revert opc
    decide
  simp only [List.forall_mem_cons] at hne
  simp [decodeCmd, hne]

/-- A reserved bit of R72 is set: of `CMD[27:17]`, `CMD[16]` but for SETPIX, or of `CMD[15:0]` but for SETPIX and RDCELL. -/
def ReservedBitSet (w : Word) : Prop :=
  w.extractLsb' 17 11 ≠ 0#11 ∨ (cmdOpc w ≠ 0x2#4 ∧ cmdV w = true) ∨
    (cmdOpc w ≠ 0x2#4 ∧ cmdOpc w ≠ 0xB#4 ∧ w.extractLsb' 0 16 ≠ 0#16)

/-- SETPIX's reserved bits are the field `rsv` alone (R72). -/
theorem ReservedBitSet.rsv_ne_zero (h : ReservedBitSet w) (ho : cmdOpc w = 0x2#4) : w.extractLsb' 17 11 ≠ 0#11 := by
  rcases h with h | ⟨hne, -⟩ | ⟨hne, -⟩
  · exact h
  · exact absurd ho hne
  · exact absurd ho hne

/-- RDCELL's reserved bits are the bits 27:16 (R72). -/
theorem ReservedBitSet.rsvV_ne_zero (h : ReservedBitSet w) (ho : cmdOpc w = 0xB#4) : w.extractLsb' 16 12 ≠ 0#12 := by
  rw [Ne, rsvV_eq_zero_iff]
  rintro ⟨hv, hrsv⟩
  rcases h with h | ⟨-, h⟩ | ⟨-, hne, -⟩
  · exact h hrsv
  · exact absurd h (by simp [hv])
  · exact hne ho

/-- A reserved bit is one of the bits 27:0 (R72). -/
theorem ReservedBitSet.low_ne_zero (h : ReservedBitSet w) : w.extractLsb' 0 28 ≠ 0#28 := by
  rw [Ne, low_eq_zero_iff]
  rintro ⟨hxy, hv, hrsv⟩
  rcases h with h | ⟨-, h⟩ | ⟨-, -, h⟩
  · exact h hrsv
  · exact absurd h (by simp [hv])
  · exact h hxy

/-- Under an opcode of R68 a reserved bit rejects the word (R72). -/
theorem decodeCmd_reservedBits (ho : cmdOpc w ∈ [0x1#4, 0x2#4, 0x3#4, 0x4#4, 0x8#4, 0x9#4, 0xA#4, 0xB#4])
    (h : ReservedBitSet w) : decodeCmd w = .error (.reservedBits w) := by
  have hplain (i : Instr) : decodePlain w i = .error (.reservedBits w) := if_neg h.low_ne_zero
  by_cases hsetpix : cmdOpc w = 0x2#4
  · simp [decodeCmd, hsetpix, h.rsv_ne_zero hsetpix]
  by_cases hrdcell : cmdOpc w = 0xB#4
  · simp [decodeCmd, hrdcell, h.rsvV_ne_zero hrdcell]
  simp only [List.mem_cons, List.not_mem_nil, hsetpix, hrdcell, false_or, or_false] at ho
  rcases ho with ho | ho | ho | ho | ho | ho <;> simp [decodeCmd, ho, hplain]

/-! ## Frames, from the encoder to the reader -/

/-- The page-select frame of a page up to 79 is read as it (R61, R64). -/
theorem decodeFrame_cmdFrame {p : Byte} (h : p.toNat < 80) : decodeFrame c (cmdFrame p) = .ok (.framePagesel p) := by
  unfold decodeFrame
  rw [pageSelected_cmdFrame h]

/-- A data frame's tag tells it from the page select, and its length is that of a page (R62). -/
theorem decodeFrame_dataFrame (h : cols.length = c.w) : decodeFrame c (dataFrame cols) = .ok .frameData := by
  have htag : Config.dataTag ≠ Config.commandTag := by decide
  have hsel : pageSelected (Config.dataTag :: cols) = none := by
    unfold pageSelected
    split
    · next heq =>
      obtain ⟨rfl, -⟩ := List.cons.inj heq
      exact if_neg fun hp => htag hp.1
    · rfl
  simp [decodeFrame, hsel, dataFrame, htag, h]

theorem initFrameLegal_of_legal (h : c.legal = true) : c.initFrameLegal = true := by
  simp only [Config.legal, Bool.and_eq_true] at h
  exact h.2

/-- The two facts of R63. -/
theorem initFrameLegal_iff : c.initFrameLegal = true ↔ c.initFrame.head? = some 0x00#8 ∧ 0x7F#8 ∈ c.initFrame := by
  simp [Config.initFrameLegal, Config.commandTag]

/-- The two facts of R63 tell the initialization frame from the others: a command frame, and no page select. -/
theorem decodeFrame_initFrame (h : c.initFrameLegal = true) : decodeFrame c c.initFrame = .ok .frameInit := by
  obtain ⟨hhead, hmem⟩ := initFrameLegal_iff.mp h
  obtain ⟨rest, hrest⟩ := List.head?_eq_some_iff.mp hhead
  unfold decodeFrame
  rw [pageSelected_of_mem hmem, hrest]
  exact if_pos rfl

end Sys2Proof

namespace Sys2Proof.Machine

variable {s : State}

/-! ## The step at a word without a meaning -/

/-- An offered word the decoder rejects is a refusal of the step (R150, R156). -/
theorem step_of_reject {o : Offer} {rest : List HostAct} {r : Reject} (hg : s.cfg.geometryLegal = true)
    (hb : s.busy = false) (hh : s.host = .offer o :: rest) (hd : decodeCmd o.cmd = .error r) :
    step s = .refused (refusalOf r) := by
  have hready : cmdReady (sampleTx s) = true := by simp [cmdReady, hb]
  rw [step, stepPorts, if_pos hg, if_pos hready]
  simp only [acceptCommand, sampleTx_host, decode, hh, hd]

/-! ## A held operation's step, and the byte on the port -/

/-- While the transport is not ready a held operation's step takes the transport's next level and nothing else (R177). -/
theorem step_of_held_of_not_ready (hg : s.cfg.geometryLegal = true) (hb : s.busy = true)
    (ho : s.seq.op = .refresh ∨ s.seq.op = .init) (hr : (sampleTx s).txReady = false) :
    step s = .next (sampleTx s) := by
  rw [step_of_held hg hb ho, resumeFrames, if_neg (by simp [hr])]

/-- The transport's level is no part of what stands on the port (R70). -/
theorem frameBytes_sampleTx (s : State) : frameBytes (sampleTx s) = frameBytes s := by
  simp [frameBytes, pageCols, fbBytes]

theorem txOffered_sampleTx (s : State) : txOffered (sampleTx s) = txOffered s := by
  simp [txOffered, frameBytes_sampleTx]

/-- No position's frame is empty (R44). -/
theorem frameBytes_ne_nil (h : s.cfg.initFrame ≠ []) : frameBytes s ≠ [] := by
  unfold frameBytes
  split
  · exact h
  · exact List.cons_ne_nil _ _
  · exact List.cons_ne_nil _ _

theorem txOffered_of_idle (hb : s.busy = false) : txOffered s = none := by
  simp [txOffered, hb]

theorem txOffered_of_held (hb : s.busy = true) (ho : s.seq.op = .refresh ∨ s.seq.op = .init) :
    txOffered s = (eventBeats ⟨s.cfg.devAddr, frameBytes s⟩).head? := by
  simp [txOffered, hb, ho]

/-- A frame's first beat (R70). -/
theorem eventBeats_head? {e : Event} (h : e.bytes ≠ []) :
    ∃ b, (eventBeats e).head? = some b ∧ b.first = true ∧ b.addr = e.addr := by
  obtain ⟨d, rest, hd⟩ := List.exists_cons_of_ne_nil h
  exact ⟨_, by rw [eventBeats, hd]; rfl, rfl, rfl⟩

theorem afterFrame_bus (s : State) : (afterFrame s).bus = s.bus := by
  obtain ⟨-, h⟩ | ⟨-, h⟩ | ⟨-, -, h⟩ | ⟨-, -, h⟩ := afterFrame_cases s <;> rw [h] <;> rfl

/-- A held operation's step with the transport ready sends the frame at its position (R25, R70). -/
theorem step_of_held_of_ready (hg : s.cfg.geometryLegal = true) (hb : s.busy = true)
    (ho : s.seq.op = .refresh ∨ s.seq.op = .init) (hp : s.seq.ph = .data → s.seq.p < s.cfg.np)
    (hr : (sampleTx s).txReady = true) :
    ∃ t, step s = .next t ∧ t.bus = s.bus ++ [⟨s.cfg.devAddr, frameBytes s⟩] := by
  obtain ⟨u, hu, hbus, -⟩ := frameAtPosition_of_ready hr (by simpa using hp)
  refine ⟨afterFrame u, ?_, ?_⟩
  · rw [step_of_held hg hb ho, resumeFrames, if_pos hr, hu, andThen_next]
  · rw [afterFrame_bus, hbus, frameBytes_sampleTx, sampleTx_bus, sampleTx_cfg]

/-! ## A grid literal and its port value -/

/-- Place `y*GW + x` of the rows in a row is cell `(x, y)` (R69, R76). -/
theorem flatten_getElem?_getD {gw x y : Nat} {rows : Grid} (hrow : ∀ row ∈ rows, row.length = gw) (hx : x < gw) :
    (rows.flatten[y * gw + x]?).getD false = cell rows x y := by
  induction rows generalizing y with
  | nil => simp [cell]
  | cons row rest ih =>
    obtain ⟨hlen, hrest⟩ := List.forall_mem_cons.mp hrow
    cases y with
    | zero =>
      rw [List.flatten_cons, List.getElem?_append_left (by omega), Nat.zero_mul, Nat.zero_add]
      rfl
    | succ y =>
      rw [List.flatten_cons, List.getElem?_append_right (by rw [hlen, Nat.succ_mul]; omega),
        show (y + 1) * gw + x - row.length = y * gw + x by rw [hlen, Nat.succ_mul]; omega, ih hrest]
      rfl

theorem flatten_length_of_gridShape {gw gh : Nat} {rows : Grid} (h : gridShape gw gh rows = true) :
    rows.flatten.length = gw * gh := by
  obtain ⟨hlen, hrow⟩ := gridShape_iff.mp h
  rw [List.length_flatten, List.map_eq_replicate_iff.mpr hrow, List.sum_replicate, hlen, smul_eq_mul, Nat.mul_comm]

theorem packRow_lt (row : List Bool) : packRow row < 2 ^ row.length := by
  induction row with
  | nil => simp [packRow]
  | cons b rest ih =>
    have hb := Bool.toNat_le b
    rw [packRow, List.length_cons, Nat.pow_succ]
    omega

theorem packGrid_lt {gw gh : Nat} {rows : Grid} (h : gridShape gw gh rows = true) :
    packGrid rows < 2 ^ (gw * gh) := by
  rw [← flatten_length_of_gridShape h]
  exact packRow_lt _

/-- The port value of a grid of the engine's shape is that grid (R69, R76). -/
theorem gridOfPort_packGrid {gw gh : Nat} {rows : Grid} (h : gridShape gw gh rows = true) :
    gridOfPort gw gh (packGrid rows) = rows := by
  refine grid_ext (gridShape_gridOf _ _ _) h fun x y hx hy => ?_
  rw [gridOfPort, cell_gridOf_of_lt _ hx hy, packGrid, packRow_testBit,
    flatten_getElem?_getD (gridShape_iff.mp h).2 hx]

/-! ## The obligations -/

/-- Settles O11: a command by the fields of its word, a frame by its tag, its length and its page. -/
theorem decodeEncodeRoundTrip : Obligations.DecodeEncodeRoundTrip := by
  intro c cols i hc hi hcols
  cases i with
  | framePagesel p =>
    obtain ⟨-, -, -, -, -, -, hnp, -⟩ := geometry_facts (geometryLegal_of_legal hc)
    have hp : p.toNat < c.np := of_decide_eq_true hi
    exact decodeFrame_cmdFrame (hp.trans_le hnp)
  | frameData => exact decodeFrame_dataFrame hcols
  | frameInit => exact decodeFrame_initFrame (initFrameLegal_of_legal hc)
  | _ => exact decodeCmd_of_encode (c := c) (cols := cols) rfl

/-- Settles O9: the decoder rejects the reserved bit. -/
theorem reservedBitsRefused : Obligations.ReservedBitsRefused :=
  fun _ _ _ hg hb hh ho hbits => step_of_reject hg hb hh (decodeCmd_reservedBits ho hbits)

/-- Settles O12: the decoder's branches, each with the word composed again from its fields. -/
theorem commandWordIsItsEncoding : Obligations.CommandWordIsItsEncoding := fun _ _ _ _ h => encode_of_decodeCmd h

/-- Settles O19: ADEC gives no index out of range. -/
theorem setpixOutOfRangeIgnored : Obligations.SetpixOutOfRangeIgnored := by
  intro s x y v hout
  have hnone : adec s.cfg x y = none := adec_eq_none.mpr (by omega)
  exact ⟨_, execSetpix_of_none hnone, rfl⟩

/-- Settles O42: the front end tests the shape, and the port undoes the packing. -/
theorem gridLiteralPacked : Obligations.GridLiteralPacked := by
  intro c rows seed
  refine ⟨fun h => ?_, fun h => ?_⟩
  · exact ⟨_, if_pos h, rfl, gridOfPort_packGrid h, packGrid_lt h⟩
  · exact if_neg (by simp [h])

/-- Settles O57: the byte offered is the first of the frame at the position, which the transport's level leaves as it is and
the step sends. -/
theorem txOffersHeldFrame : Obligations.TxOffersHeldFrame := by
  intro s hg
  refine ⟨fun hb => ?_, fun hb ho hp hinit => ?_⟩
  · have hnone := txOffered_of_idle hb
    exact ⟨hnone, by rw [txValid, hnone]; rfl⟩
  · obtain ⟨b, hhead, hfirst, haddr⟩ :=
      eventBeats_head? (e := ⟨s.cfg.devAddr, frameBytes s⟩) (frameBytes_ne_nil hinit)
    have hoffer : txOffered s = some b := (txOffered_of_held hb ho).trans hhead
    refine ⟨b, hoffer, by rw [txValid, hoffer]; rfl, hfirst, haddr, fun hr => ?_, fun hr => ?_⟩
    · exact ⟨_, step_of_held_of_not_ready hg hb ho hr, (txOffered_sampleTx s).trans hoffer⟩
    · obtain ⟨t, ht, hbus⟩ := step_of_held_of_ready hg hb ho hp hr
      exact ⟨t, _, ht, hbus, hhead⟩

/-- Settles O5: the step is the transport's next level alone. -/
theorem stepWaitsForTransport : Obligations.StepWaitsForTransport := by
  intro s hg hb ho hr
  exact ⟨_, step_of_held_of_not_ready hg hb ho hr, (sampleTx_busy s).trans hb, sampleTx_seq s, sampleTx_bus s,
    sampleTx_host s, sampleTx_fb s, sampleTx_cur s⟩

/-- Settles O8: the decoder rejects the opcode. -/
theorem reservedOpcodeRefused : Obligations.ReservedOpcodeRefused :=
  fun _ _ _ hg hb hh ho => step_of_reject hg hb hh (decodeCmd_reservedOpcode ho)

/-- Settles O10: each word and frame evaluated. -/
theorem sampleWordsDecode : Obligations.SampleWordsDecode := by
  have hdata := decodeFrame_dataFrame (c := Config.default) (cols := List.replicate 128 0x00#8) List.length_replicate
  exact ⟨rfl, rfl, rfl, rfl, rfl, rfl, rfl, rfl, hdata⟩

/-- Settles O13: the sum of R64 as a number, and below 16 the bits of `p` under those of `PAGE_BASE`. -/
theorem pageSelectByteValue : Obligations.PageSelectByteValue := by
  intro p
  have hsum : (pageSelectByte p).toNat = (0xB0 + p.toNat) % 256 := BitVec.toNat_add _ _
  have hor : ∀ n < 16, pageSelectByte (BitVec.ofNat 8 n) = 0xB0#8 ||| BitVec.ofNat 8 n := by decide
  exact ⟨pageSelectByte p, rfl, hsum, fun hp => by omega, fun hp => by simpa using hor p.toNat hp⟩

/-- Settles O25: the frame goes out, and the build is admitted by the two facts of R63. -/
theorem initFrameSent : Obligations.InitFrameSent := by
  intro s hr hc
  exact ⟨congrArg Host.Outcome.next (if_pos hr), initFrameLegal_iff.mp (initFrameLegal_of_legal hc)⟩

/-- Settles O26: each of the five tests the transport's level first. -/
theorem framesWaitForTransport : Obligations.FramesWaitForTransport := by
  intro s hr
  have hnot : ¬ s.txReady = true := by simp [hr]
  exact ⟨fun p => congrArg Host.Outcome.next (if_neg hnot), if_neg hnot, congrArg Host.Outcome.next (if_neg hnot),
    if_neg hnot, if_neg hnot⟩

/-- Settles O37: `CUR` is the port's matrix, whose cells are the port's bits. -/
theorem caloadCopiesGrid : Obligations.CaloadCopiesGrid :=
  fun _ => ⟨_, rfl, gridShape_gridOf _ _ _, fun _ _ hx hy => cell_gridOf_of_lt _ hx hy, rfl⟩

end Sys2Proof.Machine
end

section
/-! PROOFS. The pixel surface's statements: ADEC's range and its bijection (O15, O16), what SETPIX and CLEAR write (O18, O17),
and which operations leave a byte or a pixel of the framebuffer alone (O22, O21). -/

namespace Sys2Proof.Machine

/-! ## ADEC both ways -/

section Decoder

variable {c : Config} {x y : Coord} {idx : Nat} {bit : BitVec 3}

/-- Index and bit give the pixel back (R87): the index less 1 is page and column, and the bit is the row in its page. -/
theorem adec_pixel (h : adec c x y = some (idx, bit)) :
    (idx - 1) / c.w = y.toNat / 8 ∧ (idx - 1) % c.w = x.toNat ∧ y.toNat = 8 * (y.toNat / 8) + bit.toNat := by
  obtain ⟨hx, -, rfl, hbit⟩ := adec_eq_some h
  refine ⟨?_, ?_, by omega⟩
  · rw [Nat.add_sub_cancel, Nat.mul_comm, Nat.mul_add_div (by omega), Nat.div_eq_of_lt hx, Nat.add_zero]
  · rw [Nat.add_sub_cancel, Nat.mul_add_mod_self_right, Nat.mod_eq_of_lt hx]

/-- ADEC at page `p`, column `k` and bit `bit` of the surface (R84). -/
theorem adec_ofNat {k p : Nat} (hg : c.geometryLegal = true) (hk : k < c.w) (hp : p < c.np) :
    adec c (BitVec.ofNat 8 k) (BitVec.ofNat 8 (8 * p + bit.toNat)) = some (p * c.w + k + 1, bit) := by
  obtain ⟨-, hw, -, hh, hnp, -⟩ := geometry_facts hg
  have hb : bit.toNat < 8 := bit.isLt
  have hx : (BitVec.ofNat 8 k).toNat = k := by rw [BitVec.toNat_ofNat]; omega
  have hy : (BitVec.ofNat 8 (8 * p + bit.toNat)).toNat = 8 * p + bit.toNat := by rw [BitVec.toNat_ofNat]; omega
  rw [adec_of_lt (by omega) (by omega), hx, hy, show (8 * p + bit.toNat) / 8 = p by omega,
    show (8 * p + bit.toNat) % 8 = bit.toNat by omega, BitVec.ofNat_toNat, BitVec.setWidth_eq]

/-- Every bit of `FB[1 .. N-1]` is a pixel (R87): the page and the column are quotient and remainder of the index less 1. -/
theorem adec_surjective (hg : c.geometryLegal = true) (h1 : 1 ≤ idx) (hn : idx ≤ c.n - 1) :
    ∃ x y, adec c x y = some (idx, bit) := by
  obtain ⟨hw, -⟩ := geometry_facts hg
  have hlt : idx - 1 < c.w * c.np := by rw [Config.n] at hn; omega
  refine ⟨_, _, (adec_ofNat (bit := bit) hg (Nat.mod_lt (idx - 1) hw) (Nat.div_lt_of_lt_mul hlt)).trans ?_⟩
  rw [Nat.div_add_mod', Nat.sub_add_cancel h1]

/-- The last index is that of the last column of the last page (R86). -/
theorem n_sub_one_eq (hg : c.geometryLegal = true) : c.n - 1 = (c.np - 1) * c.w + c.w := by
  obtain ⟨-, -, -, -, -, hnp, -⟩ := geometry_facts hg
  rw [Config.n, Nat.add_sub_cancel_left, ← Nat.succ_mul, Nat.succ_eq_add_one, Nat.sub_add_cancel hnp, Nat.mul_comm]

end Decoder

/-! ## Who writes the framebuffer -/

variable {s t : State}

/-- Nothing but CLEAR, SETPIX and INIT changes a byte of `FB` (R93, R102): the automaton's commands do not touch it, and what
sends frames leaves it as it was. -/
theorem exec_fbByte_of_no_writer {i : Instr} (hc : i ≠ .clear) (hi : i ≠ .init) (hp : ∀ x y v, i ≠ .setpix x y v)
    (h : exec i s = .next t) (a : Nat) : fbByte t a = fbByte s a := by
  cases exec_ran h with
  | clear => exact absurd rfl hc
  | setpix => exact absurd rfl (hp _ _ _)
  | init | initWaits => exact absurd rfl hi
  | refresh hu => exact hu.byte a
  | framePagesel hu | frameData hu | frameInit hu => exact hu.byte a
  | refreshWaits | caload | caseed | advance | rdcell => rfl

/-- SETPIX on another pixel leaves a pixel's bit alone (R92): the other pixel is out of range, in another byte, or at another
bit of the same byte. -/
theorem exec_setpix_keeps_other_pixel {x y x' y' : Coord} {v : Bool} {idx : Nat} {bit : BitVec 3}
    (hg : s.cfg.geometryLegal = true) (h : adec s.cfg x y = some (idx, bit)) (hne : ¬ (x = x' ∧ y = y'))
    (he : exec (.setpix x' y' v) s = .next t) :
    (fbByte t idx).getLsbD bit.toNat = (fbByte s idx).getLsbD bit.toNat := by
  cases h' : adec s.cfg x' y' with
  | none =>
    cases (execSetpix_of_none h').symm.trans he
    rfl
  | some r =>
    obtain ⟨idx', bit'⟩ := r
    obtain ⟨u, hu, -, hbyte⟩ := exec_setpix_of_some v hg h'
    cases hu.symm.trans he
    rw [hbyte]
    by_cases hidx : idx = idx'
    · subst hidx
      have hbit : bit.toNat ≠ bit'.toNat := fun e => hne (adec_injective h (BitVec.eq_of_toNat_eq e ▸ h'))
      rw [writeBit_same, withBit_getLsbD _ _ _ bit.isLt, if_neg hbit]
    · rw [writeBit_other _ _ _ hidx]

/-! ## The obligations -/

/-- Settles O15: the index lies inside the buffer, and the two extreme pixels are the first bit of the first page's first
column and the last bit of the last page's last column. -/
theorem adecRange : Obligations.AdecRange := by
  intro c hg
  obtain ⟨hw, -, -, -, hnp, hp, -⟩ := geometry_facts hg
  refine ⟨fun x y idx bit h => ?_, ?_, ?_, n_sub_one_eq hg⟩
  · obtain ⟨h1, hn⟩ := adec_le hg h
    exact ⟨h1, by omega, by omega⟩
  · simpa using adec_ofNat (bit := 0#3) hg hw hp
  · have hlast := adec_ofNat (bit := 7#3) (k := c.w - 1) (p := c.np - 1) hg (by omega) (by omega)
    rwa [show 8 * (c.np - 1) + (7#3).toNat = c.h - 1 by simp; omega,
      show (c.np - 1) * c.w + (c.w - 1) + 1 = c.n - 1 by rw [n_sub_one_eq hg]; omega] at hlast

/-- Settles O16: index and bit give page, column and row of the pixel back, and these are the pixel of every index and bit. -/
theorem adecBijective : Obligations.AdecBijective := fun _ hg =>
  ⟨fun _ _ _ _ _ h h' => adec_injective h h', fun _ _ _ _ h => adec_pixel h, fun _ _ h1 hn => adec_surjective hg h1 hn⟩

/-- Settles O18: the state SETPIX in range answers, its one byte written read bit by bit. -/
theorem setpixWritesOneBit : Obligations.SetpixWritesOneBit := by
  intro s x y v idx bit hg h
  obtain ⟨t, ht, -, hbyte⟩ := exec_setpix_of_some v hg h
  have hrec := execSetpix_of_some (v := v) h (adec_le hg h).2
  refine ⟨t, ht, fun k hk => ?_, fun a ha => ?_, ?_⟩
  · rw [hbyte, writeBit_same, withBit_getLsbD _ _ _ hk]
  · rw [hbyte, writeBit_other _ _ _ ha]
  · cases ht.symm.trans hrec
    rfl

/-- Settles O22: every way an instruction answers, but those of the three writers. -/
theorem onlyDisplayWritersWriteFb : Obligations.OnlyDisplayWritersWriteFb :=
  fun _ _ _ hc hi hp h a => exec_fbByte_of_no_writer hc hi hp h a

/-- Settles O21: SETPIX on another pixel writes another bit, and the other operations left write no byte. -/
theorem pixelPersists : Obligations.PixelPersists := by
  intro s t x y idx bit i hg h hc hi hp he
  by_cases hset : ∃ x' y' v, i = .setpix x' y' v
  · obtain ⟨x', y', v, rfl⟩ := hset
    exact exec_setpix_keeps_other_pixel hg h (by rintro ⟨rfl, rfl⟩; exact hp v rfl) he
  · rw [exec_fbByte_of_no_writer hc hi (fun x' y' v e => hset ⟨x', y', v, e⟩) he]

/-- Settles O17: CLEAR answers the state with the framebuffer cleared. -/
theorem clearBlanksFramebuffer : Obligations.ClearBlanksFramebuffer :=
  fun s => ⟨finish (clearFb (accept .clear s)), rfl, fun a => by rw [finish_fbByte, fbByte_clearFb], rfl⟩

end Sys2Proof.Machine
end

section
/-! PROOFS. The page serializer's statements: the frames one by one (O23, O24), REFRESH and the bytes its data frames carry
(O27, O28), INIT (O31), and BOOT, which ends in one INIT (O52). -/

namespace Sys2Proof.Machine

variable {s : State}

/-! ## The bytes of the data frames -/

/-- A run of the framebuffer's bytes is its first part, then its second. -/
theorem fbBytes_add (a m n : Nat) : fbBytes s a (m + n) = fbBytes s a m ++ fbBytes s (a + m) n := by
  rw [fbBytes, List.range_add, List.map_append, List.map_map]
  exact congrArg (fbBytes s a m ++ ·) (List.map_congr_left fun k _ => congrArg (fbByte s) (Nat.add_assoc a m k).symm)

/-- The column bytes of the first `n` pages are the framebuffer from index 1 on (R41). -/
theorem flatMap_pageCols (n : Nat) : (List.range n).flatMap (pageCols s) = fbBytes s 1 (s.cfg.w * n) := by
  induction n with
  | zero => rfl
  | succ n ih =>
    rw [List.range_succ, List.flatMap_append, ih, List.flatMap_singleton, Nat.mul_succ, fbBytes_add, pageCols,
      Nat.add_comm 1, Nat.mul_comm n]

/-- The column bytes of all pages are `FB[1 .. N-1]` (R19, R41). -/
theorem flatMap_pageCols_allPages : (allPages s.cfg).flatMap (pageCols s) = fbBytes s 1 (s.cfg.n - 1) := by
  rw [allPages, flatMap_pageCols, Config.n, Nat.add_sub_cancel_left]

/-- Of a page's two events the data frame alone begins with `DATA_TAG`; behind the tag stand the column bytes (R61, R62). -/
theorem pageEvents_dataBytes (p : Nat) :
    ((pageEvents s p).filter fun e => e.bytes.head? == some Config.dataTag).flatMap (fun e => e.bytes.tail) =
      pageCols s p := by
  simp [pageEvents, cmdFrame, dataFrame, Config.commandTag, Config.dataTag]

/-- The events of a list of pages, page selects dropped and tags taken off, are the pages' column bytes in order. -/
theorem flatMap_pageEvents_dataBytes (pages : List Nat) :
    ((pages.flatMap (pageEvents s)).filter fun e => e.bytes.head? == some Config.dataTag).flatMap
      (fun e => e.bytes.tail) = pages.flatMap (pageCols s) := by
  rw [List.filter_flatMap, List.flatMap_assoc]
  exact congrArg (List.flatMap · pages) (funext pageEvents_dataBytes)

/-- On a cleared framebuffer every column byte is the off byte (R89). -/
theorem pageCols_clearFb (p : Nat) : pageCols (clearFb s) p = List.replicate s.cfg.w 0x00#8 := by
  simp [pageCols, fbBytes, List.map_const']

/-! ## REFRESH and INIT on a ready transport -/

/-- REFRESH on a ready transport (R98, R102, R103): the events of every page; the framebuffer as it was; of the other fields
only `SEQ`, `BUSY` and `SAVED` move. -/
theorem exec_refresh_of_ready (hr : s.txReady = true) :
    ∃ t, exec .refresh s = .next t ∧ t.bus = s.bus ++ (allPages s.cfg).flatMap (pageEvents s) ∧
      (∀ a, fbByte t a = fbByte s a) ∧ (Memory.wf s.fbBase s.cfg.n s.fb = true → t.fb = s.fb) ∧
      t = { s with
        fb := t.fb
        bus := t.bus
        busy := false
        seq := { s.seq with op := .idle, p := t.seq.p, ph := t.seq.ph }
        regs := { s.regs with saved := t.regs.saved } } := by
  obtain ⟨u, hu, hbus, hbyte, hwf, hrec⟩ :=
    sendPages_of_lt (s := accept .refresh s) (allPages s.cfg) fun _ => List.mem_range.mp
  refine ⟨finish u, ?_, hbus, hbyte, hwf, congrArg finish hrec⟩
  rw [exec, execRefresh, if_pos hr, hu, andThen_next]

/-- The two events of a page of an all-zero framebuffer (R61, R62, R105). -/
def blankPageEvents (c : Config) (p : Nat) : List Event :=
  [{ addr := c.devAddr, bytes := cmdFrame (BitVec.ofNat 8 p) },
   { addr := c.devAddr, bytes := dataFrame (List.replicate c.w 0x00#8) }]

theorem pageEvents_clearFb : pageEvents (clearFb s) = blankPageEvents s.cfg :=
  funext fun p => by rw [pageEvents, pageCols_clearFb, blankPageEvents, clearFb_cfg]

/-- INIT on a ready transport (R104, R105): the initialization frame, then the events of every page of a blank framebuffer;
of the fields other than the framebuffer and its mark only `SEQ`, `BUSY` and `SAVED` move. -/
theorem exec_init_of_ready (hr : s.txReady = true) :
    ∃ t, exec .init s = .next t ∧
      t.bus = s.bus ++ ⟨s.cfg.devAddr, s.cfg.initFrame⟩ :: (allPages s.cfg).flatMap (blankPageEvents s.cfg) ∧
      (∀ a, fbByte t a = 0x00#8) ∧
      t = { s with
        fb := t.fb
        fbValid := true
        bus := t.bus
        busy := false
        seq := { s.seq with op := .idle, p := t.seq.p, ph := t.seq.ph }
        regs := { s.regs with saved := t.regs.saved } } := by
  obtain ⟨u, hu, hbus, hbyte, -, hrec⟩ :=
    sendPages_of_lt (s := clearFb (busSend s.cfg.initFrame (accept .init s))) (allPages s.cfg) fun _ => List.mem_range.mp
  refine ⟨finish u, ?_, ?_, fun a => (hbyte a).trans (fbByte_clearFb a), congrArg finish hrec⟩
  · rw [exec, execInit, if_pos hr, hu, andThen_next]
  · rw [finish_bus, hbus, pageEvents_clearFb]
    exact List.append_assoc _ _ _

/-! ## BOOT -/

/-- The state CASEED answers (R122): `CUR` filled from the sampled seed, the operation complete. -/
def seeded (s : State) : State :=
  finish (endScan (markCaValid
    (setCur (gridOf s.cfg.gw s.cfg.gh (Config.prngFill s.seedIn s.cfg.gw s.cfg.gh)) (accept .caseed s))))

theorem exec_caseed : exec .caseed s = .next (seeded s) := rfl

/-- An offered word is the next step of an idle block with no level planned. -/
theorem step_of_offer_of_no_plan {o : Offer} {rest : List HostAct} {i : Instr} (hg : s.cfg.geometryLegal = true)
    (hb : s.busy = false) (hp : s.txPlan = []) (hh : s.host = .offer o :: rest) (hd : decodeCmd o.cmd = .ok i) :
    step s = exec i (takeOffer o rest s) := by
  rw [step_of_offer hg hb hh hd, sampleTx_of_nil hp]

theorem steps_one (s : State) : steps 1 s = step s := by
  rw [steps]
  cases step s <;> rfl

/-- BOOT's first offer (R137): CASEED. -/
def seedOffer (seed : Seed) (g : Nat) : Offer := ⟨0x90000000#32, seed, g⟩

/-- BOOT's second offer (R137): INIT. -/
def initOffer (seed : Seed) (g : Nat) : Offer := ⟨0x40000000#32, seed, g⟩

theorem bootActs_append (seed : Seed) (g : Nat) (rest : List HostAct) :
    bootActs seed g ++ rest = .offer (seedOffer seed g) :: .offer (initOffer seed g) :: rest := rfl

theorem decodeCmd_seedOffer (seed : Seed) (g : Nat) : decodeCmd (seedOffer seed g).cmd = .ok .caseed :=
  show decodeCmd 0x90000000#32 = _ by decide

theorem decodeCmd_initOffer (seed : Seed) (g : Nat) : decodeCmd (initOffer seed g).cmd = .ok .init :=
  show decodeCmd 0x40000000#32 = _ by decide

/-- The state from which BOOT's INIT runs: both offers taken, CASEED complete. -/
def bootSeeded (seed : Seed) (g : Nat) (rest : List HostAct) (s : State) : State :=
  takeOffer (initOffer seed g) rest (seeded (takeOffer (seedOffer seed g) (.offer (initOffer seed g) :: rest) s))

/-- The two steps of BOOT on an idle block with no level planned: CASEED leaves the second offer on the ports, then INIT
runs. -/
theorem steps_boot {seed : Seed} {g : Nat} {rest : List HostAct} (hg : s.cfg.geometryLegal = true) (hb : s.busy = false)
    (hp : s.txPlan = []) (hh : s.host = bootActs seed g ++ rest) :
    steps 2 s = exec .init (bootSeeded seed g rest s) := by
  rw [bootActs_append] at hh
  rw [steps, step_of_offer_of_no_plan hg hb hp hh (decodeCmd_seedOffer seed g), exec_caseed, andThen_next, steps_one]
  exact step_of_offer_of_no_plan hg rfl hp rfl (decodeCmd_initOffer seed g)

/-! ## The obligations -/

/-- Settles O24: what `SendPage` answers at the page the sequencer stands at. -/
theorem dataFrameSent : Obligations.DataFrameSent := by
  intro s hr hp
  obtain ⟨m, hm, hread, hwf⟩ := sendPage_of_lt hp
  exact ⟨_, (if_pos hr).trans hm, rfl, hread, hwf, rfl⟩

/-- Settles O27: the page loop over all pages, `pageEvents` written out. -/
theorem refreshSendsEveryPage : Obligations.RefreshSendsEveryPage := fun _ hr => exec_refresh_of_ready hr

/-- Settles O28: page by page the data frame holds the column bytes, and the pages' columns partition `FB[1 .. N-1]`. -/
theorem everyPixelByteSentOnce : Obligations.EveryPixelByteSentOnce := by
  intro s hr
  obtain ⟨t, ht, hbus, -⟩ := exec_refresh_of_ready hr
  exact ⟨t, _, ht, hbus, (flatMap_pageEvents_dataBytes _).trans flatMap_pageCols_allPages⟩

/-- Settles O31: the page loop after INIT's clear, `blankPageEvents` written out. -/
theorem initConfiguresAndBlanks : Obligations.InitConfiguresAndBlanks := fun _ hr => exec_init_of_ready hr

/-- Settles O52: the two steps of BOOT are one INIT from the state CASEED leaves, which has `CUR` filled from the seed. -/
theorem bootPreparesBlock : Obligations.BootPreparesBlock := by
  intro s seed g rest hg hb hr hp hh
  obtain ⟨t, ht, hbus, hbyte, hrec⟩ := exec_init_of_ready (s := bootSeeded seed g rest s) hr
  have hcur : t.cur = gridOf s.cfg.gw s.cfg.gh (Config.prngFill seed s.cfg.gw s.cfg.gh) := by rw [hrec]; rfl
  refine ⟨t, (steps_boot hg hb hp hh).trans ht, ?_, ?_, ?_, ?_, hbyte, fun x y hx hy => ?_, hbus⟩
  · rw [hrec]; rfl
  · rw [hrec]
  · rw [hrec]
  · rw [hrec]; rfl
  · rw [hcur, cell_gridOf_of_lt _ hx hy]

/-- Settles O23: the transport is ready, so the frame goes out. -/
theorem pageSelectFrameSent : Obligations.PageSelectFrameSent :=
  fun _ _ hr => congrArg Host.Outcome.next (if_pos hr)

end Sys2Proof.Machine
end

section
/-! PROOFS. The automaton's statements: the count and its saturation (O33, O34), `NextGen` under the symmetries of the grid and
on uniform grids (O35, O36), what CASEED, ADVANCE and RDCELL answer (O38, O39, O40), the grid a seed determines (O41), and the
isolation of the two units (O47). -/

namespace Sys2Proof.Machine

section Rule

variable {c c' : Config} {g g' : Grid} {x y : Nat}

/-! ## The neighbour count -/

/-- A sum over the three positions around a place, term by term. -/
theorem sum_Icc_around (z : Int) (f : Int → Nat) :
    ∑ i ∈ Finset.Icc (z - 1) (z + 1), f i = f (z - 1) + f z + f (z + 1) := by
  have hset : Finset.Icc (z - 1) (z + 1) = {z - 1, z, z + 1} := by
    ext i
    simp only [Finset.mem_Icc, Finset.mem_insert, Finset.mem_singleton]
    omega
  have hleft : z - 1 ∉ ({z, z + 1} : Finset Int) := by
    simp only [Finset.mem_insert, Finset.mem_singleton]
    omega
  rw [hset, Finset.sum_insert hleft, Finset.sum_pair (by omega), add_assoc]

/-- The count and the cell itself make up the 3 x 3 square (R113, R114). -/
theorem count_add_alive (c : Config) (g : Grid) (x y : Nat) :
    count c g x y + (alive c g x y).toNat =
      ∑ i ∈ Finset.Icc ((x : Int) - 1) (x + 1), ∑ j ∈ Finset.Icc ((y : Int) - 1) (y + 1), (alive c g i j).toNat := by
  simp only [sum_Icc_around, count, offsets, List.map_cons, List.map_nil, List.sum_cons, List.sum_nil, add_zero,
    ← sub_eq_add_neg]
  omega

/-- Eight offsets, each counting at most one (R114). -/
theorem count_le (c : Config) (g : Grid) (x y : Nat) : count c g x y ≤ 8 := by
  have hone : ∀ n ∈ offsets.map fun d => (alive c g (x + d.1) (y + d.2)).toNat, n ≤ 1 := by
    intro n hn
    obtain ⟨d, -, rfl⟩ := List.mem_map.mp hn
    exact Bool.toNat_le _
  exact List.sum_le_card_nsmul _ 1 hone

/-- Saturation at 4 keeps every count below 4 apart from the others (R116). -/
theorem min_four_eq_iff {n k : Nat} (hk : k < 4) : min n 4 = k ↔ n = k := by omega

/-- The rule sees no difference between a count and the count saturated at 4 (R116). -/
theorem nextCell_min_four (a : Bool) (n : Nat) : nextCell a (min n 4) = nextCell a n := by
  rw [Bool.eq_iff_iff, nextCell_iff, nextCell_iff, min_four_eq_iff (by decide), min_four_eq_iff (by decide)]

/-- A build whose grid is 3 x 3, so that the middle cell has all its neighbours. -/
def smallBuild : Config where
  w := 8
  h := 8
  gw := 3
  gh := 3
  devAddr := 0x3C#8
  initFrame := [0x00#8, 0x7F#8]

/-- The middle cell has three alive neighbours. -/
def threeAround : Grid := [[true, true, true], [false, false, false], [false, false, false]]

/-- The middle cell has four alive neighbours. -/
def fourAround : Grid := [[true, true, true], [true, false, false], [false, false, false]]

theorem count_threeAround : count smallBuild threeAround 1 1 = 3 := by decide

theorem count_fourAround : count smallBuild fourAround 1 1 = 4 := by decide

/-- Below 4 a threshold hides a birth at count 3, or makes one of a count 4 (R116). -/
theorem lower_threshold_harms {k : Nat} (hk : k < 4) :
    ∃ (c : Config) (g : Grid) (x y : Nat) (a : Bool),
      nextCell a (min (count c g x y) k) ≠ nextCell a (count c g x y) := by
  rcases Nat.lt_succ_iff_lt_or_eq.mp hk with hlt | rfl
  · refine ⟨smallBuild, threeAround, 1, 1, false, ?_⟩
    rw [count_threeAround, Nat.min_eq_right hlt.le]
    simp [nextCell, hlt.ne]
  · refine ⟨smallBuild, fourAround, 1, 1, false, ?_⟩
    rw [count_fourAround]
    decide

/-! ## The next generation -/

/-- A cell of `NextGen(G)` by the rule (R115, R117, R119). -/
theorem cell_nextGen_iff (hx : x < c.gw) (hy : y < c.gh) :
    cell (nextGen c g) x y = true ↔
      min (count c g x y) 4 = 3 ∨ (cell g x y = true ∧ min (count c g x y) 4 = 2) := by
  rw [cell_nextGen hx hy, nextCell_iff, satCount]

/-- `Alive` of a matrix given by its cells (R113). -/
theorem alive_gridOf (f : Nat → Nat → Bool) (i j : Int) :
    alive c (gridOf c.gw c.gh f) i j = (decide (0 ≤ i ∧ i < c.gw ∧ 0 ≤ j ∧ j < c.gh) && f i.toNat j.toNat) := by
  by_cases h : 0 ≤ i ∧ i < c.gw ∧ 0 ≤ j ∧ j < c.gh
  · rw [alive, cell_gridOf_of_lt f (by omega) (by omega)]
  · simp [alive, h]

/-- Two matrices given by their cells are equal where the cells are. -/
theorem gridOf_congr {gw gh : Nat} {f f' : Nat → Nat → Bool} (h : ∀ x y, x < gw → y < gh → f x y = f' x y) :
    gridOf gw gh f = gridOf gw gh f' :=
  grid_ext (gridShape_gridOf _ _ _) (gridShape_gridOf _ _ _) fun x y hx hy => by
    rw [cell_gridOf_of_lt f hx hy, cell_gridOf_of_lt f' hx hy, h x y hx hy]

/-- The count does not depend on the order of the neighbours: two neighbourhoods that a rearrangement of the offsets takes to
each other have the same count. -/
theorem count_eq_of_perm {x' y' : Nat} (σ : Int × Int → Int × Int) (hσ : (offsets.map σ).Perm offsets)
    (h : ∀ d : Int × Int, alive c' g' (x + d.1) (y + d.2) = alive c g (x' + (σ d).1) (y' + (σ d).2)) :
    count c' g' x y = count c g x' y' := by
  calc count c' g' x y
      = ((offsets.map σ).map fun d => (alive c g (x' + d.1) (y' + d.2)).toNat).sum := by
        rw [List.map_map]
        exact congrArg List.sum (List.map_congr_left fun d _ => congrArg Bool.toNat (h d))
    _ = count c g x' y' := (hσ.map _).sum_eq

/-- `NextGen` commutes with a change of coordinates `(u, v)` that keeps every cell's count (R119). -/
theorem nextGen_changeCoords {u v : Nat → Nat → Nat}
    (hin : ∀ x y, x < c'.gw → y < c'.gh → u x y < c.gw ∧ v x y < c.gh)
    (hcount : ∀ x y, x < c'.gw → y < c'.gh →
      count c' (gridOf c'.gw c'.gh fun x y => cell g (u x y) (v x y)) x y = count c g (u x y) (v x y)) :
    nextGen c' (gridOf c'.gw c'.gh fun x y => cell g (u x y) (v x y)) =
      gridOf c'.gw c'.gh fun x y => cell (nextGen c g) (u x y) (v x y) := by
  refine gridOf_congr fun x y hx hy => ?_
  obtain ⟨hu, hv⟩ := hin x y hx hy
  rw [cell_nextGen hu hv, satCount, satCount, hcount x y hx hy, cell_gridOf_of_lt _ hx hy]

/-! ## The symmetries of the grid -/

/-- The build whose grid is transposed. -/
def transposed (c : Config) : Config := { c with gw := c.gh, gh := c.gw }

/-- A matrix given by its cells is alive at one position where another grid is at another, if both positions are inside
together and the cells there agree. -/
theorem alive_gridOf_eq {f : Nat → Nat → Bool} {i j i' j' : Int}
    (hin : (0 ≤ i ∧ i < c'.gw ∧ 0 ≤ j ∧ j < c'.gh) ↔ (0 ≤ i' ∧ i' < c.gw ∧ 0 ≤ j' ∧ j' < c.gh))
    (hcell : 0 ≤ i → 0 ≤ j → f i.toNat j.toNat = cell g i'.toNat j'.toNat) :
    alive c' (gridOf c'.gw c'.gh f) i j = alive c g i' j' := by
  rw [alive_gridOf, alive, decide_eq_decide.mpr hin]
  by_cases h : 0 ≤ i' ∧ i' < c.gw ∧ 0 ≤ j' ∧ j' < c.gh
  · obtain ⟨hi, -, hj, -⟩ := hin.mpr h
    rw [hcell hi hj]
  · rw [decide_eq_false h, Bool.false_and, Bool.false_and]

theorem alive_transpose (c : Config) (g : Grid) (i j : Int) :
    alive (transposed c) (gridOf c.gh c.gw fun x y => cell g y x) i j = alive c g j i :=
  alive_gridOf_eq (c' := transposed c) (by simp only [transposed]; omega) fun _ _ => rfl

theorem alive_mirrorX (c : Config) (g : Grid) (i j : Int) :
    alive c (gridOf c.gw c.gh fun x y => cell g (c.gw - 1 - x) y) i j = alive c g (c.gw - 1 - i) j := by
  refine alive_gridOf_eq (by omega) fun hi _ => ?_
  have hcol : c.gw - 1 - i.toNat = ((c.gw : Int) - 1 - i).toNat := by omega
  rw [hcol]

theorem alive_mirrorY (c : Config) (g : Grid) (i j : Int) :
    alive c (gridOf c.gw c.gh fun x y => cell g x (c.gh - 1 - y)) i j = alive c g i (c.gh - 1 - j) := by
  refine alive_gridOf_eq (by omega) fun _ hj => ?_
  have hrow : c.gh - 1 - j.toNat = ((c.gh : Int) - 1 - j).toNat := by omega
  rw [hrow]

theorem count_transpose (c : Config) (g : Grid) (x y : Nat) :
    count (transposed c) (gridOf c.gh c.gw fun x y => cell g y x) x y = count c g y x :=
  count_eq_of_perm Prod.swap (by decide) fun d => alive_transpose c g _ _

theorem count_mirrorX (g : Grid) (y : Nat) (hx : x < c.gw) :
    count c (gridOf c.gw c.gh fun x y => cell g (c.gw - 1 - x) y) x y = count c g (c.gw - 1 - x) y := by
  refine count_eq_of_perm (fun d => (-d.1, d.2)) (by decide) fun d => ?_
  have hcol : (c.gw : Int) - 1 - (x + d.1) = (c.gw - 1 - x : Nat) + -d.1 := by omega
  rw [alive_mirrorX, hcol]

theorem count_mirrorY (g : Grid) (x : Nat) (hy : y < c.gh) :
    count c (gridOf c.gw c.gh fun x y => cell g x (c.gh - 1 - y)) x y = count c g x (c.gh - 1 - y) := by
  refine count_eq_of_perm (fun d => (d.1, -d.2)) (by decide) fun d => ?_
  have hrow : (c.gh : Int) - 1 - (y + d.2) = (c.gh - 1 - y : Nat) + -d.2 := by omega
  rw [alive_mirrorY, hrow]

theorem nextGen_transpose (c : Config) (g : Grid) :
    nextGen (transposed c) (gridOf c.gh c.gw fun x y => cell g y x) =
      gridOf c.gh c.gw fun x y => cell (nextGen c g) y x :=
  nextGen_changeCoords (c' := transposed c) (u := fun _ y => y) (v := fun x _ => x)
    (fun _ _ hx hy => ⟨hy, hx⟩) fun x y _ _ => count_transpose c g x y

theorem nextGen_mirrorX (c : Config) (g : Grid) :
    nextGen c (gridOf c.gw c.gh fun x y => cell g (c.gw - 1 - x) y) =
      gridOf c.gw c.gh fun x y => cell (nextGen c g) (c.gw - 1 - x) y :=
  nextGen_changeCoords (u := fun x _ => c.gw - 1 - x) (v := fun _ y => y)
    (fun _ _ hx hy => ⟨by omega, hy⟩) fun _ y hx _ => count_mirrorX g y hx

theorem nextGen_mirrorY (c : Config) (g : Grid) :
    nextGen c (gridOf c.gw c.gh fun x y => cell g x (c.gh - 1 - y)) =
      gridOf c.gw c.gh fun x y => cell (nextGen c g) x (c.gh - 1 - y) :=
  nextGen_changeCoords (u := fun x _ => x) (v := fun _ y => c.gh - 1 - y)
    (fun _ _ hx hy => ⟨hx, by omega⟩) fun x _ _ hy => count_mirrorY g x hy

/-! ## Uniform grids -/

theorem count_allDead (c : Config) (x y : Nat) : count c (gridOf c.gw c.gh fun _ _ => false) x y = 0 := by
  simp [count, offsets, alive_gridOf]

/-- How many of the three places around place `x` lie on a line of `n` places: two at an end of the line, three elsewhere. -/
def placesAround (n x : Nat) : Nat := if x = 0 ∨ x = n - 1 then 2 else 3

theorem sum_around_eq_placesAround {n x : Nat} (hn : 2 ≤ n) (hx : x < n) :
    ∑ i ∈ Finset.Icc ((x : Int) - 1) (x + 1), (decide (0 ≤ i ∧ i < n)).toNat = placesAround n x := by
  have hleft : (0 ≤ (x : Int) - 1 ∧ (x : Int) - 1 < n) ↔ ¬ x = 0 := by omega
  have hmid : 0 ≤ (x : Int) ∧ (x : Int) < n := by omega
  have hright : (0 ≤ (x : Int) + 1 ∧ (x : Int) + 1 < n) ↔ ¬ x = n - 1 := by omega
  simp only [sum_Icc_around, hleft, hmid, hright, placesAround]
  by_cases h0 : x = 0
  · have h1 : ¬ x = n - 1 := by omega
    simp [h0, h0 ▸ h1]
  · by_cases h1 : x = n - 1
    · simp [h0, ← h1]
    · simp [h0, h1]

/-- On an all-alive grid the 3 x 3 square around a cell is the product of its columns and its rows that lie on the grid. -/
theorem count_allAlive (hw : 2 ≤ c.gw) (hh : 2 ≤ c.gh) (hx : x < c.gw) (hy : y < c.gh) :
    count c (gridOf c.gw c.gh fun _ _ => true) x y + 1 = placesAround c.gw x * placesAround c.gh y := by
  have hself : alive c (gridOf c.gw c.gh fun _ _ => true) x y = true := by
    rw [alive_natCast, if_pos ⟨hx, hy⟩, cell_gridOf_of_lt _ hx hy]
  have hprod : ∀ i j : Int, (alive c (gridOf c.gw c.gh fun _ _ => true) i j).toNat =
      (decide (0 ≤ i ∧ i < c.gw)).toNat * (decide (0 ≤ j ∧ j < c.gh)).toNat := by
    intro i j
    rw [alive_gridOf, Bool.and_true]
    by_cases hi : 0 ≤ i ∧ i < c.gw
    · simp [hi]
    · simp [hi, ← and_assoc]
  have hsum := count_add_alive c (gridOf c.gw c.gh fun _ _ => true) x y
  rw [hself, Bool.toNat_true] at hsum
  rw [hsum, ← sum_around_eq_placesAround hw hx, ← sum_around_eq_placesAround hh hy, Finset.sum_mul_sum]
  simp only [hprod]

theorem nextGen_allDead (c : Config) :
    nextGen c (gridOf c.gw c.gh fun _ _ => false) = gridOf c.gw c.gh fun _ _ => false := by
  refine gridOf_congr fun x y hx hy => ?_
  rw [cell_gridOf_of_lt _ hx hy, satCount, count_allDead]
  rfl

/-- On an all-alive grid a corner has 3 alive neighbours, an edge cell 5, an inner cell 8 (R124). -/
theorem nextGen_allAlive (hw : 3 ≤ c.gw) (hh : 3 ≤ c.gh) :
    nextGen c (gridOf c.gw c.gh fun _ _ => true) =
      gridOf c.gw c.gh fun x y => decide ((x = 0 ∨ x = c.gw - 1) ∧ (y = 0 ∨ y = c.gh - 1)) := by
  refine gridOf_congr fun x y hx hy => ?_
  have hcount := count_allAlive (by omega) (by omega) hx hy
  rw [placesAround, placesAround] at hcount
  rw [cell_gridOf_of_lt _ hx hy, satCount, nextCell_min_four, Bool.eq_iff_iff, nextCell_iff, decide_eq_true_eq]
  by_cases hcol : x = 0 ∨ x = c.gw - 1
  · rw [if_pos hcol] at hcount
    by_cases hrow : y = 0 ∨ y = c.gh - 1
    · rw [if_pos hrow] at hcount
      exact iff_of_true (.inl (by omega)) ⟨hcol, hrow⟩
    · rw [if_neg hrow] at hcount
      exact iff_of_false (by omega) fun h => hrow h.2
  · rw [if_neg hcol] at hcount
    refine iff_of_false ?_ fun h => hcol h.1
    split at hcount <;> omega

end Rule

/-! ## The automaton's commands -/

section Commands

variable {s t : State}

/-- The state ADVANCE answers (R124, R125): `CUR` is the next generation, the operation complete. -/
def advanced (s : State) : State :=
  finish (endScan (leaveCount (setCur (nextGen s.cfg s.cur) (setNxt (nextGen s.cfg s.cur) (accept .advance s)))))

theorem exec_advance : exec .advance s = .next (advanced s) := rfl

/-- The count ADVANCE leaves is a saturated count (R115, R126). -/
theorem advanced_ncnt_le : (advanced s).regs.ncnt.toNat ≤ 4 := by
  simp only [advanced, finish_regs, endScan_regs, leaveCount_regs, BitVec.toNat_ofNat]
  omega

/-- After `k` ADVANCE `CUR` is the `k`-th generation from the one at the start (R129). -/
theorem advanceMany_answers (k : Nat) (s : State) :
    ∃ t, advanceMany k s = .next t ∧ t.cur = (nextGen s.cfg)^[k] s.cur := by
  induction k generalizing s with
  | zero => exact ⟨s, rfl, rfl⟩
  | succ k ih =>
    obtain ⟨t, ht, hcur⟩ := ih (advanced s)
    exact ⟨t, by rw [advanceMany, exec_advance, andThen_next, ht], hcur⟩

/-- CASEED, then `k` ADVANCE: the `k`-th generation of the seed's grid (R122, R129). -/
theorem seedThenAdvance_answers (k : Nat) (s : State) :
    ∃ t, andThen (exec .caseed s) (advanceMany k) = .next t ∧
      t.cur = (nextGen s.cfg)^[k] (gridOf s.cfg.gw s.cfg.gh (Config.prngFill s.seedIn s.cfg.gw s.cfg.gh)) := by
  obtain ⟨t, ht, hcur⟩ := advanceMany_answers k (seeded s)
  exact ⟨t, by rw [exec_caseed, andThen_next, ht], hcur⟩

/-! ## The two units -/

/-- The display operations and frames leave the automaton's storage alone (R112, R154). -/
theorem exec_display_keeps_automaton {i : Instr}
    (hi : i ∈ [.clear, .refresh, .init, .frameData, .frameInit] ∨ (∃ x y v, i = .setpix x y v) ∨
      ∃ p, i = .framePagesel p) (h : exec i s = .next t) :
    t.cur = s.cur ∧ t.nxt = s.nxt ∧ t.rdData = s.rdData ∧ t.caValid = s.caValid := by
  cases exec_ran h with
  | clear | setpix | refreshWaits | initWaits => simp
  | refresh hu | init hu | framePagesel hu | frameData hu | frameInit hu =>
    simp [hu.cur, hu.nxt, hu.rdData, hu.caValid]
  | caload | caseed | advance | rdcell => simp at hi

/-- The automaton operations leave the display's storage and `BUS` alone (R112, R154). -/
theorem exec_automaton_keeps_display {i : Instr}
    (hi : i ∈ [.caload, .caseed, .advance] ∨ ∃ x y, i = .rdcell x y) (h : exec i s = .next t) :
    t.fb = s.fb ∧ (∀ a, fbByte t a = fbByte s a) ∧ t.fbValid = s.fbValid ∧ t.bus = s.bus ∧
      t.regs.saved = s.regs.saved := by
  cases exec_ran h with
  | caload | caseed | advance | rdcell => simp
  | clear | setpix | refresh | refreshWaits | init | initWaits | framePagesel | frameData | frameInit => simp at hi

end Commands

/-! ## The obligations -/

/-- Settles O33: the square's sum term by term, and eight terms of at most one. -/
theorem countIsNeighbourSum : Obligations.CountIsNeighbourSum :=
  fun c g x y => ⟨count_add_alive c g x y, count_le c g x y⟩

/-- Settles O34: the rule tells only counts below 4 apart, and it tells 2, 3 and 4 apart. -/
theorem saturationIsHarmless : Obligations.SaturationIsHarmless := by
  refine ⟨fun c g x y a => ⟨nextCell_min_four a _, ?_, ?_⟩, fun k hk => lower_threshold_harms hk⟩
  · exact min_four_eq_iff (by decide)
  · exact min_four_eq_iff (by decide)

/-- Settles O35: each symmetry of the grid rearranges the eight offsets. -/
theorem nextGenSymmetries : Obligations.NextGenSymmetries := fun c g =>
  ⟨gridShape_nextGen c g, fun _ _ hx hy => cell_nextGen_iff hx hy, nextGen_transpose c g, nextGen_mirrorX c g,
    nextGen_mirrorY c g⟩

/-- Settles O36: a count of 0 everywhere, and counts of 3, 5 and 8 at the corners, the edges and inside. -/
theorem uniformGrids : Obligations.UniformGrids := fun c => ⟨nextGen_allDead c, nextGen_allAlive⟩

/-- Settles O39: the state ADVANCE answers has `NextGen` of the grid at its start as `CUR`. -/
theorem advanceStepsGeneration : Obligations.AdvanceStepsGeneration := fun _ =>
  ⟨_, exec_advance, gridShape_nextGen _ _, fun _ _ hx hy => cell_nextGen_iff hx hy, advanced_ncnt_le, rfl⟩

/-- Settles O41: `CUR` is the `k`-th generation of the seed's grid, which build and seed determine. -/
theorem seedDeterminism : Obligations.SeedDeterminism := by
  intro s s' k hcfg hseed
  obtain ⟨t, ht, hcur⟩ := seedThenAdvance_answers k s
  obtain ⟨t', ht', hcur'⟩ := seedThenAdvance_answers k s'
  exact ⟨t, t', ht, ht', by rw [hcur, hcur', hcfg, hseed]⟩

/-- Settles O47: every way an instruction answers, unit by unit. -/
theorem unitsAreIsolated : Obligations.UnitsAreIsolated :=
  ⟨fun _ _ _ => exec_display_keeps_automaton, fun _ _ _ => exec_automaton_keeps_display⟩

/-- Settles O38: `CUR` is the generator's matrix for the sampled seed. -/
theorem caseedFillsGrid : Obligations.CaseedFillsGrid :=
  fun _ => ⟨_, exec_caseed, gridShape_gridOf _ _ _, fun _ _ hx hy => cell_gridOf_of_lt _ hx hy, rfl⟩

/-- Settles O40: `Alive` at the operands is the cell inside the grid and dead outside. -/
theorem rdcellReadsCell : Obligations.RdcellReadsCell := by
  intro s x y
  rw [← alive_natCast]
  rfl

end Sys2Proof.Machine
end

section
/-! PROOFS. The compositions: GETGRID (O51), RENDER (O50), one iteration of FRAMELOOP (O53) and `k` of them (O54). Each command
the host issues to an idle block is one lemma; a composition is an induction on the cells or on the iterations. REFRESH alone
may have to wait, so its lemma is an induction on the host's wait: the sequencer's position in the list of frames says which
events are still to come. -/

namespace Sys2Proof.Machine

variable {s t u : State}

/-! ## What the host's commands leave alone -/

/-- The transport's final level depends on its plan and its level alone (R177). -/
theorem txEndsReady_congr (hp : t.txPlan = s.txPlan) (hr : t.txReady = s.txReady) : txEndsReady t = txEndsReady s := by
  rw [txEndsReady, txEndsReady, hp, hr]

/-- The build, what the host still offers, and the level at which `tx_ready` stays are as before. -/
structure Kept (s t : State) : Prop where
  cfg : t.cfg = s.cfg
  host : t.host = s.host
  endsReady : txEndsReady t = txEndsReady s

theorem Kept.refl (s : State) : Kept s s := ⟨rfl, rfl, rfl⟩

theorem Kept.trans (h : Kept s t) (h' : Kept t u) : Kept s u :=
  ⟨h'.cfg.trans h.cfg, h'.host.trans h.host, h'.endsReady.trans h.endsReady⟩

/-- What is kept after the step has taken the transport's next level is kept by the step. -/
theorem Kept.of_sampleTx (hc : t.cfg = (sampleTx s).cfg) (hh : t.host = (sampleTx s).host)
    (hp : t.txPlan = (sampleTx s).txPlan) (hr : t.txReady = (sampleTx s).txReady) : Kept s t :=
  ⟨hc.trans (sampleTx_cfg s), hh.trans (sampleTx_host s), (txEndsReady_congr hp hr).trans txEndsReady_sampleTx⟩

/-- The block is idle, and the grid and `BUS` are as before too: what RDCELL and SETPIX leave. -/
structure Undisturbed (s t : State) : Prop where
  kept : Kept s t
  idle : t.busy = false
  cur : t.cur = s.cur
  bus : t.bus = s.bus

theorem Undisturbed.refl (hb : s.busy = false) : Undisturbed s s := ⟨.refl s, hb, rfl, rfl⟩

theorem Undisturbed.trans (h : Undisturbed s t) (h' : Undisturbed t u) : Undisturbed s u :=
  ⟨h.kept.trans h'.kept, h'.idle, h'.cur.trans h.cur, h'.bus.trans h.bus⟩

theorem Undisturbed.geometry (h : Undisturbed s t) (hg : s.cfg.geometryLegal = true) : t.cfg.geometryLegal = true := by
  rw [h.kept.cfg]; exact hg

/-- RDCELL and SETPIX leave the block idle and the grid and `BUS` alone (R90, R128). -/
theorem exec_undisturbed {i : Instr} (hi : (∃ x y, i = .rdcell x y) ∨ ∃ x y v, i = .setpix x y v)
    (h : exec i (sampleTx s) = .next t) : Undisturbed s t := by
  cases exec_ran h with
  | rdcell | setpix => exact ⟨.of_sampleTx (by simp) (by simp) (by simp) (by simp), by simp, by simp, by simp⟩
  | clear | refresh | refreshWaits | init | initWaits | caload | caseed | advance => simp at hi
  | framePagesel | frameData | frameInit => simp at hi

/-- A command that leaves the block idle is complete once issued: the host does not wait (R18). -/
theorem issue_of_finished {w : Word} {i : Instr} (hg : s.cfg.geometryLegal = true) (hb : s.busy = false)
    (hd : decodeCmd w = .ok i) (he : exec i (sampleTx s) = .next t) (ht : t.busy = false) : issue w s = .next t := by
  rw [issue_of_idle hg hb hd, he, andThen_next, awaitIdle_of_idle ht]

/-- RDCELL and SETPIX, issued by the host to an idle block, complete (R18). -/
theorem issue_undisturbed {w : Word} {i : Instr} (hd : decodeCmd w = .ok i)
    (hi : (∃ x y, i = .rdcell x y) ∨ ∃ x y v, i = .setpix x y v) (hg : s.cfg.geometryLegal = true)
    (hb : s.busy = false) : ∃ t, issue w s = .next t ∧ exec i (sampleTx s) = .next t ∧ Undisturbed s t := by
  obtain ⟨t, ht⟩ := exec_command_answers (s := sampleTx s) hd (by rwa [sampleTx_cfg])
  have hu := exec_undisturbed hi ht
  exact ⟨t, issue_of_finished hg hb hd ht hu.idle, ht, hu⟩

/-! ## RDCELL, and GETGRID -/

/-- A coordinate the grid or the surface has is held by 8 bits (R7). -/
theorem coord_toNat {n k : Nat} (hk : k < n) (hn : n ≤ 256) : (BitVec.ofNat 8 k).toNat = k :=
  (BitVec.toNat_ofNat k 8).trans (Nat.mod_eq_of_lt (by omega))

/-- RDCELL on a cell of the grid, issued by the host to an idle block, gives the cell (R128). -/
theorem issueRdcell_answers {x y : Nat} (hg : s.cfg.geometryLegal = true) (hb : s.busy = false) (hx : x < s.cfg.gw)
    (hy : y < s.cfg.gh) :
    ∃ t, issueRdcell x y s = .next t ∧ Undisturbed s t ∧ t.rdData = cell s.cur x y ∧ fbByte t = fbByte s := by
  obtain ⟨-, -, -, -, -, -, -, -, hgw, -, hgh⟩ := geometry_facts hg
  obtain ⟨t, ht, he, hu⟩ := issue_undisturbed (decodeCmd_rdcell (BitVec.ofNat 8 x) (BitVec.ofNat 8 y))
    (.inl ⟨_, _, rfl⟩) hg hb
  have hdata : t.rdData = alive s.cfg s.cur (BitVec.ofNat 8 x).toNat (BitVec.ofNat 8 y).toNat := by
    cases he
    simp
  obtain ⟨-, hbyte, -⟩ := exec_automaton_keeps_display (.inr ⟨_, _, rfl⟩) he
  refine ⟨t, ht, hu, ?_, funext fun a => (hbyte a).trans (by rw [sampleTx_fbByte])⟩
  rw [hdata, coord_toNat hx hgw, coord_toNat hy hgh, alive_natCast, if_pos ⟨hx, hy⟩]

/-- The cells RDCELL gives for a list of positions of the grid (R136). -/
theorem readCells_answers (cells : List (Nat × Nat)) (hg : s.cfg.geometryLegal = true) (hb : s.busy = false)
    (hin : ∀ p ∈ cells, p.1 < s.cfg.gw ∧ p.2 < s.cfg.gh) :
    ∃ t, readCells cells s = .next (cells.map fun p => cell s.cur p.1 p.2, t) ∧ Undisturbed s t := by
  induction cells generalizing s with
  | nil => exact ⟨s, rfl, .refl hb⟩
  | cons p rest ih =>
    obtain ⟨hp, hrest⟩ := List.forall_mem_cons.mp hin
    obtain ⟨u, hu, hun, hdata, -⟩ := issueRdcell_answers hg hb hp.1 hp.2
    obtain ⟨t, ht, htn⟩ := ih (hun.geometry hg) hun.idle (by rwa [hun.kept.cfg])
    refine ⟨t, ?_, hun.trans htn⟩
    rw [readCells, hu, andThen_next, if_neg (by simp [hun.idle]), ht, andThen_next, hdata, hun.cur, List.map_cons]

/-- The rows RDCELL gives for a list of rows of positions of the grid (R136). -/
theorem readRows_answers (rows : List (List (Nat × Nat))) (hg : s.cfg.geometryLegal = true) (hb : s.busy = false)
    (hin : ∀ row ∈ rows, ∀ p ∈ row, p.1 < s.cfg.gw ∧ p.2 < s.cfg.gh) :
    ∃ t, readRows rows s = .next (rows.map (List.map fun p => cell s.cur p.1 p.2), t) ∧ Undisturbed s t := by
  induction rows generalizing s with
  | nil => exact ⟨s, rfl, .refl hb⟩
  | cons row rest ih =>
    obtain ⟨hrow, hrest⟩ := List.forall_mem_cons.mp hin
    obtain ⟨u, hu, hun⟩ := readCells_answers row hg hb hrow
    obtain ⟨t, ht, htn⟩ := ih (hun.geometry hg) hun.idle (by rwa [hun.kept.cfg])
    refine ⟨t, ?_, hun.trans htn⟩
    rw [readRows, hu, andThen_next, if_neg (by simp [hun.idle]), ht, andThen_next, hun.cur, List.map_cons]

theorem mem_rowPositions {c : Config} {y : Nat} {p : Nat × Nat} : p ∈ rowPositions c y ↔ p.1 < c.gw ∧ p.2 = y := by
  obtain ⟨a, b⟩ := p
  simp [rowPositions, eq_comm]

theorem mem_cellPositions {c : Config} {p : Nat × Nat} : p ∈ cellPositions c ↔ p.1 < c.gw ∧ p.2 < c.gh := by
  simp [cellPositions, mem_rowPositions, and_comm]

/-- The rows of positions, each position replaced by the cell there, are the grid (R20). -/
theorem map_rowPositions {c : Config} {g : Grid} (h : gridShape c.gw c.gh g = true) :
    ((List.range c.gh).map (rowPositions c)).map (List.map fun p => cell g p.1 p.2) = g := by
  rw [List.map_map]
  refine Eq.trans (List.map_congr_left fun y _ => ?_) (gridOf_cell h)
  exact List.map_map

/-! ## SETPIX, and RENDER -/

/-- The framebuffer shows the grid's cell at a pixel of the surface: the bit ADEC places is the cell (R84, R135). -/
def ShowsCell (s : State) (x y : Coord) : Prop :=
  ∀ idx bit, adec s.cfg x y = some (idx, bit) → (fbByte s idx).getLsbD bit.toNat = cell s.cur x.toNat y.toNat

theorem ShowsCell.congr {x y : Coord} (h : ShowsCell s x y) (hc : t.cfg = s.cfg) (hcur : t.cur = s.cur)
    (hbyte : fbByte t = fbByte s) : ShowsCell t x y := by
  rw [ShowsCell, hc, hcur, hbyte]
  exact h

/-- SETPIX never writes the reserved slot (R86). -/
theorem exec_setpix_fbByte_zero {x y : Coord} {v : Bool} (hg : s.cfg.geometryLegal = true)
    (he : exec (.setpix x y v) s = .next t) : fbByte t 0 = fbByte s 0 := by
  cases h : adec s.cfg x y with
  | none =>
    cases (execSetpix_of_none h).symm.trans he
    rfl
  | some r =>
    obtain ⟨u, hu, -, hbyte⟩ := exec_setpix_of_some v hg h
    cases hu.symm.trans he
    have hidx := (adec_le hg h).1
    rw [hbyte, writeBit_other _ _ _ (by omega)]

/-- After SETPIX of a pixel to its cell's value the framebuffer shows that cell, and every cell it showed before (R90, R92). -/
theorem exec_setpix_shows {x y : Coord} (hg : s.cfg.geometryLegal = true)
    (he : exec (.setpix x y (cell s.cur x.toNat y.toNat)) s = .next t) :
    ShowsCell t x y ∧ ∀ x' y', ShowsCell s x' y' → ShowsCell t x' y' := by
  have hc : t.cfg = s.cfg := exec_cfg he
  have hcur : t.cur = s.cur := (exec_display_keeps_automaton (.inr (.inl ⟨_, _, _, rfl⟩)) he).1
  have hself : ShowsCell t x y := by
    intro idx bit h
    rw [hc] at h
    obtain ⟨u, hu, -, hbyte⟩ := exec_setpix_of_some (cell s.cur x.toNat y.toNat) hg h
    cases hu.symm.trans he
    rw [hbyte, writeBit_same, withBit_getLsbD _ _ _ bit.isLt, if_pos rfl, hcur]
  refine ⟨hself, fun x' y' hs => ?_⟩
  by_cases hsame : x' = x ∧ y' = y
  · obtain ⟨rfl, rfl⟩ := hsame
    exact hself
  · intro idx bit h
    rw [hc] at h
    rw [exec_setpix_keeps_other_pixel hg h hsame he, hs idx bit h, hcur]

/-- RENDER's work on one cell of the grid (R134): the framebuffer shows it afterwards, and every cell it showed before. -/
theorem renderCell_answers {x y : Nat} (hg : s.cfg.geometryLegal = true) (hb : s.busy = false) (hx : x < s.cfg.gw)
    (hy : y < s.cfg.gh) :
    ∃ t, renderCell x y s = .next t ∧ Undisturbed s t ∧ fbByte t 0 = fbByte s 0 ∧
      ShowsCell t (BitVec.ofNat 8 x) (BitVec.ofNat 8 y) ∧ ∀ x' y', ShowsCell s x' y' → ShowsCell t x' y' := by
  obtain ⟨-, -, -, -, -, -, -, -, hgw, -, hgh⟩ := geometry_facts hg
  obtain ⟨u, hu, hun, hdata, hubyte⟩ := issueRdcell_answers hg hb hx hy
  obtain ⟨t, ht, he, htn⟩ := issue_undisturbed
    (decodeCmd_setpix (BitVec.ofNat 8 x) (BitVec.ofNat 8 y) u.rdData) (.inr ⟨_, _, _, rfl⟩) (hun.geometry hg) hun.idle
  have hgu : (sampleTx u).cfg.geometryLegal = true := by
    rw [sampleTx_cfg]; exact hun.geometry hg
  have hval : u.rdData = cell (sampleTx u).cur (BitVec.ofNat 8 x).toNat (BitVec.ofNat 8 y).toNat := by
    rw [hdata, sampleTx_cur, hun.cur, coord_toNat hx hgw, coord_toNat hy hgh]
  have hslot := exec_setpix_fbByte_zero hgu he
  rw [hval] at he
  obtain ⟨hself, hothers⟩ := exec_setpix_shows hgu he
  refine ⟨t, ?_, hun.trans htn, ?_, hself, fun x' y' hs => hothers x' y' (hs.congr ?_ ?_ ?_)⟩
  · rw [renderCell, hu, andThen_next]
    exact ht
  · rw [hslot, sampleTx_fbByte, hubyte]
  · rw [sampleTx_cfg, hun.kept.cfg]
  · rw [sampleTx_cur, hun.cur]
  · rw [sampleTx_fbByte, hubyte]

/-- RENDER's work on a list of cells of the grid (R134): the framebuffer shows them all afterwards. -/
theorem renderCells_answers (cells : List (Nat × Nat)) (hg : s.cfg.geometryLegal = true) (hb : s.busy = false)
    (hin : ∀ p ∈ cells, p.1 < s.cfg.gw ∧ p.2 < s.cfg.gh) :
    ∃ t, renderCells cells s = .next t ∧ Undisturbed s t ∧ fbByte t 0 = fbByte s 0 ∧
      (∀ p ∈ cells, ShowsCell t (BitVec.ofNat 8 p.1) (BitVec.ofNat 8 p.2)) ∧
      ∀ x' y', ShowsCell s x' y' → ShowsCell t x' y' := by
  induction cells generalizing s with
  | nil => exact ⟨s, rfl, .refl hb, rfl, fun _ h => absurd h List.not_mem_nil, fun _ _ h => h⟩
  | cons p rest ih =>
    obtain ⟨hp, hrest⟩ := List.forall_mem_cons.mp hin
    obtain ⟨u, hu, hun, huslot, hushows, hukeeps⟩ := renderCell_answers hg hb hp.1 hp.2
    obtain ⟨t, ht, htn, htslot, htshows, htkeeps⟩ := ih (hun.geometry hg) hun.idle (by rwa [hun.kept.cfg])
    refine ⟨t, ?_, hun.trans htn, htslot.trans huslot, ?_, fun x' y' h => htkeeps x' y' (hukeeps x' y' h)⟩
    · rw [renderCells, hu, andThen_next, ht]
    · exact List.forall_mem_cons.mpr ⟨htkeeps _ _ hushows, htshows⟩

/-- The framebuffer shows the grid: bit `r` of column `x` of page `p` is cell `(x, 8p + r)` (R135). -/
def ShowsGrid (s : State) (g : Grid) : Prop :=
  ∀ p x r, p < s.cfg.np → x < s.cfg.w → r < 8 → (fbByte s (1 + p * s.cfg.w + x)).getLsbD r = cell g x (8 * p + r)

theorem ShowsGrid.congr {g : Grid} (h : ShowsGrid s g) (hc : t.cfg = s.cfg) (hbyte : fbByte t = fbByte s) :
    ShowsGrid t g := by
  rw [ShowsGrid, hc, hbyte]
  exact h

/-- A framebuffer that shows every cell of a grid of the surface's size shows the grid. -/
theorem showsGrid_of_cells (hg : s.cfg.geometryLegal = true)
    (h : ∀ x y, x < s.cfg.w → y < s.cfg.h → ShowsCell s (BitVec.ofNat 8 x) (BitVec.ofNat 8 y)) :
    ShowsGrid s s.cur := by
  intro p x r hp hx hr
  obtain ⟨-, hw, -, hh, hnp, -⟩ := geometry_facts hg
  have hy : 8 * p + r < s.cfg.h := by omega
  have hbit : (BitVec.ofNat 3 r).toNat = r := (BitVec.toNat_ofNat r 3).trans (Nat.mod_eq_of_lt hr)
  have hadec := adec_ofNat (bit := BitVec.ofNat 3 r) hg hx hp
  rw [hbit] at hadec
  have hcell := h x (8 * p + r) hx hy _ _ hadec
  rwa [hbit, coord_toNat hx hw, coord_toNat hy hh, Nat.add_comm _ 1, ← Nat.add_assoc] at hcell

/-- RENDER on a grid of the surface's size, issued by the host to an idle block (R134, R135). -/
theorem render_answers (hg : s.cfg.geometryLegal = true) (hw : s.cfg.gw = s.cfg.w) (hh : s.cfg.gh = s.cfg.h)
    (hb : s.busy = false) :
    ∃ t, render s = .next t ∧ Undisturbed s t ∧ fbByte t 0 = fbByte s 0 ∧ ShowsGrid t s.cur := by
  obtain ⟨t, ht, hun, hslot, hshows, -⟩ := renderCells_answers (cellPositions s.cfg) hg hb fun p => mem_cellPositions.mp
  refine ⟨t, ht, hun, hslot, ?_⟩
  rw [← hun.cur]
  refine showsGrid_of_cells (hun.geometry hg) fun x y hx hy => hshows (x, y) (mem_cellPositions.mpr ?_)
  rw [hun.kept.cfg] at hx hy
  rw [hw, hh]
  exact ⟨hx, hy⟩

/-! ## REFRESH, whatever levels the transport takes first -/

/-- The events of a REFRESH: both frames of every page (R103). -/
def refreshEvents (s : State) : List Event := (allPages s.cfg).flatMap (pageEvents s)

theorem refreshEvents_congr (hc : t.cfg = s.cfg) (hbyte : fbByte t = fbByte s) : refreshEvents t = refreshEvents s := by
  rw [refreshEvents, refreshEvents, hc, funext (pageEvents_congr hc fun a _ => congrFun hbyte a)]

theorem refreshEvents_length (s : State) : (refreshEvents s).length = 2 * s.cfg.np := by
  simp [refreshEvents, allPages, pageEvents, List.length_flatMap, Nat.mul_comm]

/-- Of the two events of each page, the one at an even place is the page select (R98, R103). -/
theorem pageEvents_flatMap_getElem?_even (s : State) (pages : List Nat) (k : Nat) :
    (pages.flatMap (pageEvents s))[2 * k]? =
      pages[k]?.map fun p => ⟨s.cfg.devAddr, cmdFrame (BitVec.ofNat 8 p)⟩ := by
  induction pages generalizing k with
  | nil => rfl
  | cons p rest ih =>
    cases k with
    | zero => rfl
    | succ k => exact ih k

theorem refreshEvents_getElem?_even {p : Nat} (hp : p < s.cfg.np) :
    (refreshEvents s)[2 * p]? = some ⟨s.cfg.devAddr, cmdFrame (BitVec.ofNat 8 p)⟩ := by
  rw [refreshEvents, pageEvents_flatMap_getElem?_even, allPages, List.getElem?_range hp, Option.map_some]

theorem refreshEvents_getElem?_odd {p : Nat} (hp : p < s.cfg.np) :
    (refreshEvents s)[2 * p + 1]? = some ⟨s.cfg.devAddr, dataFrame (pageCols s p)⟩ := by
  rw [refreshEvents, pageEvents_flatMap_getElem?_odd, allPages, List.getElem?_range hp, Option.map_some]

/-- Frames have gone out, and the framebuffer and the grid are as before: what a REFRESH does, whole or in part. -/
structure Transmits (s : State) (evs : List Event) (t : State) : Prop where
  kept : Kept s t
  cur : t.cur = s.cur
  byte : fbByte t = fbByte s
  bus : t.bus = s.bus ++ evs

theorem Transmits.trans {evs evs' : List Event} (h : Transmits s evs t) (h' : Transmits t evs' u) :
    Transmits s (evs ++ evs') u :=
  ⟨h.kept.trans h'.kept, h'.cur.trans h.cur, h'.byte.trans h.byte, by rw [h'.bus, h.bus, List.append_assoc]⟩

theorem Transmits.refreshEvents_eq {evs : List Event} (h : Transmits s evs t) : refreshEvents t = refreshEvents s :=
  refreshEvents_congr h.kept.cfg h.byte

/-- Taking the transport's next level sends nothing. -/
theorem transmits_sampleTx (s : State) : Transmits s [] (sampleTx s) :=
  ⟨.of_sampleTx rfl rfl rfl rfl, sampleTx_cur s, sampleTx_fbByte s, by rw [sampleTx_bus, List.append_nil]⟩

/-- The place, among the events of a REFRESH, of the frame the sequencer stands at (R25). -/
def framePlace (q : Seq) : Nat := 2 * q.p + if q.ph = .data then 1 else 0

/-- The events of a REFRESH from the frame at the sequencer's position on (R103). -/
def eventsLeft (s : State) : List Event := (refreshEvents s).drop (framePlace s.seq)

theorem Transmits.eventsLeft_eq {evs : List Event} (h : Transmits s evs t) :
    eventsLeft t = (refreshEvents s).drop (framePlace t.seq) := by
  rw [eventsLeft, h.refreshEvents_eq]

/-- REFRESH or INIT is in progress on an admitted geometry and stands at a frame of a page (R25). -/
structure AtPage (s : State) : Prop where
  geometry : s.cfg.geometryLegal = true
  busy : s.busy = true
  op : s.seq.op = .refresh ∨ s.seq.op = .init
  phase : s.seq.ph ≠ .initFrame
  page : s.seq.p < s.cfg.np

namespace AtPage

theorem sampled (h : AtPage s) : AtPage (sampleTx s) where
  geometry := by rw [sampleTx_cfg]; exact h.geometry
  busy := by rw [sampleTx_busy]; exact h.busy
  op := by rw [sampleTx_seq]; exact h.op
  phase := by rw [sampleTx_seq]; exact h.phase
  page := by rw [sampleTx_seq, sampleTx_cfg]; exact h.page

/-- There is a frame left to send. -/
theorem framePlace_lt (h : AtPage s) : framePlace s.seq < 2 * s.cfg.np := by
  have hp := h.page
  unfold framePlace
  split <;> omega

/-- The frame at the sequencer's position is the event at its place. -/
theorem refreshEvents_getElem? (h : AtPage s) :
    (refreshEvents s)[framePlace s.seq]? = some ⟨s.cfg.devAddr, frameBytes s⟩ := by
  unfold framePlace frameBytes
  cases hph : s.seq.ph with
  | initFrame => exact absurd hph h.phase
  | cmd => exact refreshEvents_getElem?_even h.page
  | data => exact refreshEvents_getElem?_odd h.page

/-- The first event left is the frame at the sequencer's position. -/
theorem eventsLeft_eq (h : AtPage s) :
    eventsLeft s = [⟨s.cfg.devAddr, frameBytes s⟩] ++ (refreshEvents s).drop (framePlace s.seq + 1) := by
  obtain ⟨hlt, he⟩ := List.getElem?_eq_some_iff.mp h.refreshEvents_getElem?
  rw [eventsLeft, List.drop_eq_getElem_cons hlt, he, List.singleton_append]

/-- After a page's frame the sequencer stands at the next place, or the operation is complete at the last one (R25). -/
theorem next_place (h : AtPage s) :
    (AtPage (afterFrame s) ∧ framePlace (afterFrame s).seq = framePlace s.seq + 1) ∨
      ((afterFrame s).busy = false ∧ framePlace s.seq + 1 = 2 * s.cfg.np) := by
  rcases afterFrame_cases s with ⟨hph, -⟩ | ⟨hph, he⟩ | ⟨hph, hp, he⟩ | ⟨hph, hp, he⟩
  · exact absurd hph h.phase
  · refine .inl ⟨?_, by rw [he]; simp [framePlace, hph]⟩
    rw [he]
    exact ⟨h.geometry, h.busy, h.op, by simp, h.page⟩
  · refine .inl ⟨?_, by rw [he]; simp [framePlace, hph]; omega⟩
    rw [he]
    exact ⟨h.geometry, h.busy, h.op, by simp, hp⟩
  · have hpage := h.page
    refine .inr ⟨by rw [he]; rfl, ?_⟩
    simp only [framePlace, hph, if_true]
    omega

/-- After a page's frame nothing but `SEQ` and `BUSY` moves (R25). -/
theorem afterFrame_eq (h : AtPage s) : ∃ b q, afterFrame s = { s with busy := b, seq := q } := by
  rcases afterFrame_cases s with ⟨hph, -⟩ | ⟨-, he⟩ | ⟨-, -, he⟩ | ⟨-, -, he⟩
  · exact absurd hph h.phase
  all_goals exact ⟨_, _, he⟩

/-- A page's frame goes out in the step in which the transport is ready (R25, R102). -/
theorem step_of_ready (h : AtPage s) (hr : (sampleTx s).txReady = true) :
    ∃ t, step s = .next t ∧ t.txPlan = s.txPlan.tail ∧ Transmits s [⟨s.cfg.devAddr, frameBytes s⟩] t ∧
      ((AtPage t ∧ framePlace t.seq = framePlace s.seq + 1) ∨
        (t.busy = false ∧ framePlace s.seq + 1 = 2 * s.cfg.np)) := by
  obtain ⟨u, hu, hbus, hbyte, hrec⟩ := frameAtPosition_of_ready hr fun _ => h.sampled.page
  have hpage : AtPage u := by
    rw [hrec]
    exact ⟨h.sampled.geometry, h.sampled.busy, h.sampled.op, h.sampled.phase, h.sampled.page⟩
  have hnext := hpage.next_place
  have hseq : u.seq = s.seq := by rw [hrec, sampleTx_seq]
  have hcfg : u.cfg = s.cfg := by rw [hrec, sampleTx_cfg]
  obtain ⟨b, q, hq⟩ := hpage.afterFrame_eq
  refine ⟨afterFrame u, ?_, ?_, ⟨.of_sampleTx ?_ ?_ ?_ ?_, ?_, ?_, ?_⟩, by rwa [hseq, hcfg] at hnext⟩
  · rw [step_of_held h.geometry h.busy h.op, resumeFrames, if_pos hr, hu, andThen_next]
  · rw [hq, hrec, sampleTx_txPlan]
  · rw [hq, hrec]
  · rw [hq, hrec]
  · rw [hq, hrec]
  · rw [hq, hrec]
  · rw [hq, hrec, sampleTx_cur]
  · rw [hq, ← sampleTx_fbByte s]
    exact funext hbyte
  · rw [afterFrame_bus, hbus, frameBytes_sampleTx, sampleTx_bus, sampleTx_cfg]

end AtPage

/-- The steps the host may have to wait for: the levels planned, and a step for each frame left. -/
def waitBound (s : State) : Nat := s.txPlan.length + (2 * s.cfg.np - framePlace s.seq)

/-- The host's wait for an operation that stands at a page's frame ends, if the transport is ready in the end (R177): the
frames left have gone out. -/
theorem AtPage.waitIdle_ends (h : AtPage s) (he : txEndsReady s = true) {n : Nat} (hn : waitBound s ≤ n) :
    ∃ t, waitIdle n s = .next t ∧ t.busy = false ∧ Transmits s (eventsLeft s) t := by
  have hlt := h.framePlace_lt
  induction n generalizing s with
  | zero =>
    rw [waitBound] at hn
    omega
  | succ n ih =>
    have htail : s.txPlan.tail.length = s.txPlan.length - 1 := List.length_tail
    rw [waitBound] at hn
    simp only [waitIdle, h.busy, if_true]
    cases hr : (sampleTx s).txReady with
    | false =>
      have hplan : s.txPlan ≠ [] := fun hp => by
        rw [sampleTx_of_nil hp, txReady_of_endsReady he hp] at hr
        cases hr
      have hpos := List.length_pos_iff.mpr hplan
      have hbound : waitBound (sampleTx s) ≤ n := by
        rw [waitBound, sampleTx_txPlan, sampleTx_cfg, sampleTx_seq]
        omega
      obtain ⟨t, ht, hb, hsent⟩ := ih h.sampled (by rwa [txEndsReady_sampleTx]) hbound h.sampled.framePlace_lt
      rw [(transmits_sampleTx s).eventsLeft_eq, sampleTx_seq] at hsent
      rw [step_of_held_of_not_ready h.geometry h.busy h.op hr, andThen_next]
      exact ⟨t, ht, hb, (transmits_sampleTx s).trans hsent⟩
    | true =>
      obtain ⟨u, hu, huplan, husent, ⟨hupage, hplace⟩ | ⟨hidle, hlast⟩⟩ := h.step_of_ready hr
      · have hbound : waitBound u ≤ n := by
          rw [waitBound, huplan, husent.kept.cfg, hplace]
          omega
        obtain ⟨t, ht, hb, hsent⟩ := ih hupage (husent.kept.endsReady.trans he) hbound hupage.framePlace_lt
        rw [husent.eventsLeft_eq, hplace] at hsent
        rw [hu, andThen_next, h.eventsLeft_eq]
        exact ⟨t, ht, hb, husent.trans hsent⟩
      · rw [hu, andThen_next, h.eventsLeft_eq, hlast, List.drop_eq_nil_of_le (refreshEvents_length s).le,
          List.append_nil]
        exact ⟨u, waitIdle_of_idle n hidle, hidle, husent⟩

/-- A REFRESH that stands at its first frame is waited for to its end (R177). -/
theorem awaitIdle_heldRefresh (hg : s.cfg.geometryLegal = true) (he : txEndsReady s = true) :
    ∃ t, awaitIdle (moveTo 0 .cmd (accept .refresh s)) = .next t ∧ t.busy = false ∧
      Transmits s (refreshEvents s) t := by
  obtain ⟨-, -, -, -, -, hnp, -⟩ := geometry_facts hg
  have hpage : AtPage (moveTo 0 .cmd (accept .refresh s)) := ⟨hg, rfl, .inl rfl, by simp, hnp⟩
  have hbound : waitBound (moveTo 0 .cmd (accept .refresh s)) ≤ s.txPlan.length + 2 * s.cfg.np + 1 := by
    simp only [waitBound, moveTo_txPlan, moveTo_cfg, accept_txPlan, accept_cfg]
    omega
  obtain ⟨t, ht, hb, hk, hcur, hbyte, hbus⟩ := hpage.waitIdle_ends he hbound
  exact ⟨t, ht, hb, ⟨hk.cfg, hk.host, hk.endsReady⟩, hcur, hbyte, hbus⟩

/-- REFRESH on a ready transport transmits (R98, R102, R103). -/
theorem exec_refresh_transmits (hr : s.txReady = true) :
    ∃ t, exec .refresh s = .next t ∧ t.busy = false ∧ Transmits s (refreshEvents s) t := by
  obtain ⟨t, ht, hbus, hbyte, -, hrec⟩ := exec_refresh_of_ready hr
  refine ⟨t, ht, ?_, ⟨?_, ?_, txEndsReady_congr ?_ ?_⟩, ?_, funext hbyte, hbus⟩
  all_goals rw [hrec]

/-- REFRESH issued by the host to an idle block completes, if the transport is ready in the end (R98, R177). -/
theorem issueRefresh_answers (hg : s.cfg.geometryLegal = true) (hb : s.busy = false) (he : txEndsReady s = true) :
    ∃ t, issueRefresh s = .next t ∧ t.busy = false ∧ Transmits s (refreshEvents s) t := by
  have hissue : issueRefresh s = andThen (exec .refresh (sampleTx s)) awaitIdle := issue_of_idle hg hb (by decide)
  have hsample := transmits_sampleTx s
  rw [hissue, ← hsample.refreshEvents_eq]
  cases hr : (sampleTx s).txReady with
  | true =>
    obtain ⟨t, ht, hidle, hsent⟩ := exec_refresh_transmits hr
    rw [ht, andThen_next]
    exact ⟨t, awaitIdle_of_idle hidle, hidle, hsample.trans hsent⟩
  | false =>
    obtain ⟨t, ht, hidle, hsent⟩ := awaitIdle_heldRefresh (s := sampleTx s) (by rwa [sampleTx_cfg])
      (by rwa [txEndsReady_sampleTx])
    have hheld : exec .refresh (sampleTx s) = .next (moveTo 0 .cmd (accept .refresh (sampleTx s))) := by
      rw [exec, execRefresh, hr]
      rfl
    rw [hheld, andThen_next]
    exact ⟨t, ht, hidle, hsample.trans hsent⟩

/-! ## ADVANCE, and FRAMELOOP -/

/-- ADVANCE issued by the host to an idle block completes with the next generation, and leaves the display alone (R112,
R124). -/
theorem issueAdvance_answers (hg : s.cfg.geometryLegal = true) (hb : s.busy = false) :
    ∃ t, issueAdvance s = .next t ∧ Kept s t ∧ t.busy = false ∧ t.cur = nextGen s.cfg s.cur ∧ t.bus = s.bus ∧
      fbByte t = fbByte s := by
  refine ⟨advanced (sampleTx s), issue_of_finished hg hb (by decide) exec_advance rfl, .of_sampleTx ?_ ?_ ?_ ?_, rfl, ?_,
    ?_, ?_⟩
  all_goals simp [advanced]

/-- What one iteration of FRAMELOOP leaves (R139, R140): the framebuffer shows the generation it began with and has gone out,
and `CUR` is the next generation. -/
structure Iterated (s t : State) : Prop where
  kept : Kept s t
  idle : t.busy = false
  cur : t.cur = nextGen s.cfg s.cur
  slot : fbByte t 0 = fbByte s 0
  shows : ShowsGrid t s.cur
  bus : t.bus = s.bus ++ refreshEvents t

/-- One iteration of FRAMELOOP on a grid of the surface's size, begun by the host on an idle block (R139, R140). -/
theorem frameIteration_answers (hg : s.cfg.geometryLegal = true) (hw : s.cfg.gw = s.cfg.w) (hh : s.cfg.gh = s.cfg.h)
    (hb : s.busy = false) (he : txEndsReady s = true) : ∃ t, frameIteration s = .next t ∧ Iterated s t := by
  obtain ⟨u, hu, hun, huslot, hushows⟩ := render_answers hg hw hh hb
  have hgu := hun.geometry hg
  obtain ⟨v, hv, hvidle, hvsent⟩ := issueRefresh_answers hgu hun.idle (hun.kept.endsReady.trans he)
  have hgv : v.cfg.geometryLegal = true := by rw [hvsent.kept.cfg]; exact hgu
  obtain ⟨t, ht, htkept, htidle, htcur, htbus, htbyte⟩ := issueAdvance_answers hgv hvidle
  have hkept : Kept u t := hvsent.kept.trans htkept
  have hbyte : fbByte t = fbByte u := htbyte.trans hvsent.byte
  refine ⟨t, ?_, hun.kept.trans hkept, htidle, ?_, ?_, hushows.congr hkept.cfg hbyte, ?_⟩
  · rw [frameIteration, hu, andThen_next, hv, andThen_next, ht]
  · rw [htcur, hvsent.kept.cfg, hvsent.cur, hun.kept.cfg, hun.cur]
  · rw [hbyte, huslot]
  · rw [htbus, hvsent.bus, hun.bus, refreshEvents_congr hkept.cfg hbyte]

/-- From place `n` of `evs` on stand the events of a REFRESH that carries the grid (R103, R140): for each page its page select
and its data frame, bit `r` of column `x` being cell `(x, 8p + r)`. -/
def CarriesGrid (c : Config) (g : Grid) (evs : List Event) (n : Nat) : Prop :=
  ∀ p, p < c.np →
    evs[n + 2 * p]? = some ⟨c.devAddr, [0x00#8, 0xB0#8 + BitVec.ofNat 8 p, 0x02#8, 0x10#8]⟩ ∧
    ∃ cols, evs[n + 2 * p + 1]? = some ⟨c.devAddr, 0x40#8 :: cols⟩ ∧ cols.length = c.w ∧
      ∀ x r, x < c.w → r < 8 → ∃ b, cols[x]? = some b ∧ b.getLsbD r = cell g x (8 * p + r)

/-- The events of a REFRESH carry the grid the framebuffer shows (R65, R103). -/
theorem ShowsGrid.carriesGrid {g : Grid} (h : ShowsGrid s g) : CarriesGrid s.cfg g (refreshEvents s) 0 := by
  intro p hp
  rw [Nat.zero_add]
  refine ⟨refreshEvents_getElem?_even hp, pageCols s p, refreshEvents_getElem?_odd hp, pageCols_length p,
    fun x r hx hr => ⟨_, dataFrame_pageCols_getElem? hx, ?_⟩⟩
  rw [Nat.add_comm _ 1]
  exact h p x r hp hx hr

/-- Events that follow change nothing of those that stand. -/
theorem CarriesGrid.append_right {c : Config} {g : Grid} {evs : List Event} {n : Nat} (h : CarriesGrid c g evs n)
    (rest : List Event) : CarriesGrid c g (evs ++ rest) n := by
  intro p hp
  have hkeep {i : Nat} {e : Event} (hi : evs[i]? = some e) : (evs ++ rest)[i]? = some e := by
    obtain ⟨hlt, -⟩ := List.getElem?_eq_some_iff.mp hi
    rw [List.getElem?_append_left hlt, hi]
  obtain ⟨hsel, cols, hdata, hcols⟩ := h p hp
  exact ⟨hkeep hsel, cols, hkeep hdata, hcols⟩

/-- Events before them move the place. -/
theorem CarriesGrid.append_left {c : Config} {g : Grid} {evs : List Event} {n : Nat} (h : CarriesGrid c g evs n)
    (before : List Event) : CarriesGrid c g (before ++ evs) (before.length + n) := by
  intro p hp
  have hshift (i : Nat) : (before ++ evs)[before.length + i]? = evs[i]? := by
    rw [List.getElem?_append_right (Nat.le_add_right _ _), Nat.add_sub_cancel_left]
  rw [Nat.add_assoc before.length n, Nat.add_assoc before.length (n + 2 * p), hshift, hshift]
  exact h p hp

/-- `k` iterations of FRAMELOOP (R139, R140): iteration `j` sends a REFRESH that carries the `j`-th generation. -/
theorem frameLoop_answers (k : Nat) (hg : s.cfg.geometryLegal = true) (hw : s.cfg.gw = s.cfg.w)
    (hh : s.cfg.gh = s.cfg.h) (hb : s.busy = false) (he : txEndsReady s = true) :
    ∃ t new, frameLoop k s = .next t ∧ t.busy = false ∧ t.cur = (nextGen s.cfg)^[k] s.cur ∧ t.bus = s.bus ++ new ∧
      new.length = 2 * s.cfg.np * k ∧
      ∀ j, j < k → CarriesGrid s.cfg ((nextGen s.cfg)^[j] s.cur) new (2 * s.cfg.np * j) := by
  induction k generalizing s with
  | zero => exact ⟨s, [], rfl, hb, rfl, (List.append_nil _).symm, rfl, fun j hj => absurd hj (Nat.not_lt_zero j)⟩
  | succ k ih =>
    obtain ⟨u, hu, hiter⟩ := frameIteration_answers hg hw hh hb he
    have hcfg := hiter.kept.cfg
    obtain ⟨t, new, ht, htidle, htcur, htbus, hlen, hgens⟩ := ih (by rwa [hcfg]) (by rwa [hcfg]) (by rwa [hcfg])
      hiter.idle (hiter.kept.endsReady.trans he)
    rw [hcfg] at hlen hgens htcur
    rw [hiter.cur] at hgens htcur
    have hfirst : (refreshEvents u).length = 2 * s.cfg.np := by rw [refreshEvents_length, hcfg]
    refine ⟨t, refreshEvents u ++ new, ?_, htidle, htcur, ?_, ?_, fun j hj => ?_⟩
    · rw [frameLoop, hu, andThen_next, ht]
    · rw [htbus, hiter.bus, List.append_assoc]
    · rw [List.length_append, hfirst, hlen, Nat.mul_succ, Nat.add_comm]
    · cases j with
      | zero =>
        have hshown := hiter.shows.carriesGrid
        rw [hcfg] at hshown
        exact hshown.append_right new
      | succ j =>
        have hlater := (hgens j (by omega)).append_left (refreshEvents u)
        rw [hfirst, Nat.add_comm, ← Nat.mul_succ] at hlater
        exact hlater

/-! ## The obligations -/

/-- Settles O50: RENDER's work on every cell, none of which undoes another's. -/
theorem renderCopiesGrid : Obligations.RenderCopiesGrid := by
  intro s hg hw hh hb
  obtain ⟨t, ht, hun, hslot, hshows⟩ := render_answers hg hw hh hb
  rw [ShowsGrid, hun.kept.cfg] at hshows
  exact ⟨t, ht, hshows, hslot, hun.cur, hun.bus, hun.idle, hun.kept.host⟩

/-- Settles O51: RDCELL gives every cell, and the rows of cells are the grid. -/
theorem getGridReadsGrid : Obligations.GetGridReadsGrid := by
  intro s hg hshape hb
  have hin : ∀ row ∈ (List.range s.cfg.gh).map (rowPositions s.cfg), ∀ p ∈ row, p.1 < s.cfg.gw ∧ p.2 < s.cfg.gh := by
    intro row hrow p hp
    obtain ⟨y, hy, rfl⟩ := List.mem_map.mp hrow
    obtain ⟨hx, rfl⟩ := mem_rowPositions.mp hp
    exact ⟨hx, List.mem_range.mp hy⟩
  obtain ⟨t, ht, hun⟩ := readRows_answers _ hg hb hin
  rw [map_rowPositions hshape] at ht
  exact ⟨t, ht, hun.cur, hun.idle, hun.kept.host⟩

/-- Settles O53: RENDER shows the generation, REFRESH sends what is shown, ADVANCE leaves it in `FB`. -/
theorem frameIterationShowsGeneration : Obligations.FrameIterationShowsGeneration := by
  intro s hg hw hh hb he
  obtain ⟨t, ht, hiter⟩ := frameIteration_answers hg hw hh hb he
  have hcfg := hiter.kept.cfg
  have hshows := hiter.shows
  refine ⟨t, refreshEvents t, ht, hiter.idle, hiter.cur, hiter.bus, by rw [refreshEvents_length, hcfg], hiter.slot, ?_⟩
  rw [← hcfg]
  intro p x r hp hx hr
  refine ⟨hshows p x r hp hx hr, _, _, refreshEvents_getElem?_odd hp, rfl, dataFrame_pageCols_getElem? hx, ?_⟩
  rw [Nat.add_comm _ 1]
  exact hshows p x r hp hx hr

/-- Settles O54: an induction on the iterations, `CarriesGrid` written out. -/
theorem frameLoopShowsGenerations : Obligations.FrameLoopShowsGenerations := by
  intro k s hg hw hh hb he
  obtain ⟨t, new, ht, hidle, hcur, hbus, hlen, hgens⟩ := frameLoop_answers k hg hw hh hb he
  exact ⟨t, new, ht, hidle, hcur, hbus, hlen, fun j p hj => hgens j hj p⟩

end Sys2Proof.Machine
end

section
/-! PROOFS. The block at rest and the host's wait: an idle step with nothing offered (O6), and the end of the wait once the
transport takes bytes (O55). The wait for an operation at a page's frame is `AtPage.waitIdle_ends`; what is left is INIT's first
position, from which one frame leads to the first page. -/

namespace Sys2Proof.Machine

open Sys2Proof.Safety

variable {s : State}

/-! ## The idle step -/

/-- Sampling takes the first level of the plan, or keeps the present one (R70, R177). -/
theorem sampleTx_eq (s : State) :
    sampleTx s = { s with txReady := (s.txPlan.head?).getD s.txReady, txPlan := s.txPlan.tail } := by
  unfold sampleTx
  cases s
  split
  · next h => cases h; rfl
  · next h => cases h; rfl

/-- With nothing offered at an operation boundary the step takes the transport's next level alone (R160, R164). -/
theorem step_of_nothing_offered (hg : s.cfg.geometryLegal = true) (hb : s.busy = false) (hh : s.host = []) :
    step s = .next (sampleTx s) := by
  have hready : cmdReady (sampleTx s) = true := by simp [cmdReady, hb]
  rw [step, stepPorts, if_pos hg, if_pos hready]
  simp only [acceptCommand, sampleTx_host, hh]

/-! ## The wait at INIT's first position -/

/-- A level the transport is not ready at is a planned one, if the transport is ready in the end (R177). -/
theorem txPlan_pos_of_not_ready (he : txEndsReady s = true) (hr : (sampleTx s).txReady = false) :
    0 < s.txPlan.length := by
  refine List.length_pos_iff.mpr fun hp => ?_
  rw [sampleTx_of_nil hp, txReady_of_endsReady he hp] at hr
  cases hr

/-- INIT is in progress on an admitted geometry and stands at the initialization frame (R25). -/
structure AtInitFrame (s : State) : Prop where
  geometry : s.cfg.geometryLegal = true
  busy : s.busy = true
  op : s.seq.op = .init
  phase : s.seq.ph = .initFrame

namespace AtInitFrame

theorem sampled (h : AtInitFrame s) : AtInitFrame (sampleTx s) where
  geometry := by rw [sampleTx_cfg]; exact h.geometry
  busy := by rw [sampleTx_busy]; exact h.busy
  op := by rw [sampleTx_seq]; exact h.op
  phase := by rw [sampleTx_seq]; exact h.phase

/-- The initialization frame goes out, and INIT passes its clear and reaches the first page (R25, R104; log 25). -/
theorem step_of_ready (h : AtInitFrame s) (hr : (sampleTx s).txReady = true) :
    ∃ t, step s = .next t ∧ AtPage t ∧ framePlace t.seq = 0 ∧ t.txPlan = s.txPlan.tail ∧ Kept s t ∧ t.cur = s.cur := by
  have hs := h.sampled
  obtain ⟨-, -, -, -, -, hnp, -⟩ := geometry_facts hs.geometry
  have hframe : frameAtPosition (sampleTx s) = .next (busSend (sampleTx s).cfg.initFrame (sampleTx s)) := by
    simp only [frameAtPosition, hs.phase, execFrameInit, hr, if_true]
  have hafter : afterFrame (busSend (sampleTx s).cfg.initFrame (sampleTx s)) =
      moveTo 0 .cmd (clearFb (busSend (sampleTx s).cfg.initFrame (sampleTx s))) := by
    simp only [afterFrame, busSend_seq, hs.phase]
  refine ⟨moveTo 0 .cmd (clearFb (busSend (sampleTx s).cfg.initFrame (sampleTx s))), ?_,
    ⟨hs.geometry, hs.busy, .inr hs.op, nofun, hnp⟩, rfl, sampleTx_txPlan, .of_sampleTx rfl rfl rfl rfl, sampleTx_cur s⟩
  rw [step_of_held h.geometry h.busy (.inr h.op), resumeFrames, if_pos hr, hframe, andThen_next, hafter]

/-- The host's wait for an INIT that stands at the initialization frame ends, if the transport is ready in the end (R177). -/
theorem waitIdle_ends (h : AtInitFrame s) (he : txEndsReady s = true) {n : Nat}
    (hn : s.txPlan.length + 2 * s.cfg.np < n) :
    ∃ t, waitIdle n s = .next t ∧ t.busy = false ∧ Kept s t ∧ t.cur = s.cur := by
  induction n generalizing s with
  | zero => omega
  | succ n ih =>
    have htail : s.txPlan.tail.length = s.txPlan.length - 1 := List.length_tail
    simp only [waitIdle, h.busy, if_true]
    cases hr : (sampleTx s).txReady with
    | false =>
      have hpos := txPlan_pos_of_not_ready he hr
      have hbound : (sampleTx s).txPlan.length + 2 * (sampleTx s).cfg.np < n := by
        rw [sampleTx_txPlan, sampleTx_cfg]
        omega
      obtain ⟨t, ht, hidle, hkept, hcur⟩ := ih h.sampled (by rwa [txEndsReady_sampleTx]) hbound
      rw [step_of_held_of_not_ready h.geometry h.busy (.inr h.op) hr, andThen_next]
      exact ⟨t, ht, hidle, (transmits_sampleTx s).kept.trans hkept, hcur.trans (sampleTx_cur s)⟩
    | true =>
      obtain ⟨u, hu, hpage, hplace, hplan, hukept, hucur⟩ := h.step_of_ready hr
      have hbound : waitBound u ≤ n := by
        rw [waitBound, hplan, hplace, hukept.cfg]
        omega
      obtain ⟨t, ht, hidle, hsent⟩ := hpage.waitIdle_ends (hukept.endsReady.trans he) hbound
      rw [hu, andThen_next]
      exact ⟨t, ht, hidle, hukept.trans hsent.kept, hsent.cur.trans hucur⟩

end AtInitFrame

/-! ## The wait from every state of the invariant -/

/-- Between two steps the block is idle, or INIT stands at its first frame, or REFRESH or INIT at a frame of a page (R24, R25,
R177). -/
theorem position_of_inv (h : Inv s) : s.busy = false ∨ AtInitFrame s ∨ AtPage s := by
  cases hb : s.busy with
  | false => exact .inl rfl
  | true =>
    have hg : s.cfg.geometryLegal = true := (Bool.and_eq_true_iff.mp h.cfgLegal).1
    have hop : s.seq.op ≠ .idle := h.busyIff.mp hb
    have hwaits : s.seq.op = .refresh ∨ s.seq.op = .init := h.opWaits.resolve_left hop
    by_cases hph : s.seq.ph = .initFrame
    · have hinit : s.seq.op = .init := hwaits.resolve_left fun ho => h.initPhase ho hph
      exact .inr (.inl ⟨hg, hb, hinit, hph⟩)
    · exact .inr (.inr ⟨hg, hb, hwaits, hph, h.pageInRange hop hph⟩)

/-- The host's wait ends, if the transport is ready in the end (R149, R177). -/
theorem awaitIdle_ends (h : Inv s) (he : txEndsReady s = true) :
    ∃ t, awaitIdle s = .next t ∧ t.busy = false ∧ Kept s t ∧ t.cur = s.cur := by
  rcases position_of_inv h with hidle | hinit | hpage
  · exact ⟨s, awaitIdle_of_idle hidle, hidle, .refl s, rfl⟩
  · exact hinit.waitIdle_ends he (Nat.lt_succ_self _)
  · have hbound : waitBound s ≤ s.txPlan.length + 2 * s.cfg.np + 1 := by
      rw [waitBound]
      omega
    obtain ⟨t, ht, hidle, hsent⟩ := hpage.waitIdle_ends he hbound
    exact ⟨t, ht, hidle, hsent.kept, hsent.cur⟩

/-! ## The obligations -/

/-- Settles O55: at each position an operation in progress can stand at, the wait's bound covers the levels planned and the
frames left. -/
theorem waitEndsWhenTransportTakesBytes : Obligations.WaitEndsWhenTransportTakesBytes := by
  intro s h he
  obtain ⟨t, ht, hidle, hkept, hcur⟩ := awaitIdle_ends h he
  exact ⟨t, ht, hidle, hcur, hkept.host⟩

/-- Settles O6: the idle step samples the transport's level. -/
theorem stepIdleHoldsState : Obligations.StepIdleHoldsState := by
  intro s hg hb hh
  rw [step_of_nothing_offered hg hb hh, sampleTx_eq]

end Sys2Proof.Machine
end

section
/-! PROOFS. The transport that is never ready again (O56): the block that hangs is a fixed point of the step, so the host's wait
and every word it issues answer that same state; and RENDER leaves the transport alone, so FRAMELOOP hangs at its REFRESH. -/

namespace Sys2Proof.Machine

variable {s t : State}

/-- `tx_ready` is 0, and no other level is planned (R177; log 11). -/
structure NeverReady (s : State) : Prop where
  level : s.txReady = false
  plan : s.txPlan = []

/-! ## The block that hangs -/

/-- REFRESH or INIT in progress hangs: the step answers the same state (R177). -/
theorem NeverReady.step_of_held (h : NeverReady s) (hg : s.cfg.geometryLegal = true) (hb : s.busy = true)
    (ho : s.seq.op = .refresh ∨ s.seq.op = .init) : step s = .next s := by
  have hsample : sampleTx s = s := sampleTx_of_nil h.plan
  have hstep := step_of_held_of_not_ready hg hb ho (by rw [hsample, h.level])
  rwa [hsample] at hstep

/-- A REFRESH accepted while the transport is never ready hangs at its first frame (R25, R177). -/
theorem NeverReady.step_heldRefresh (h : NeverReady s) (hg : s.cfg.geometryLegal = true) :
    step (moveTo 0 .cmd (accept .refresh s)) = .next (moveTo 0 .cmd (accept .refresh s)) :=
  NeverReady.step_of_held ⟨h.level, h.plan⟩ hg rfl (.inl rfl)

/-- A busy block whose step changes nothing accepts nothing the host issues (R174, R177; log 22). -/
theorem issue_of_stuck (w : Word) (hb : s.busy = true) (h : step s = .next s) : issue w s = .next s := by
  have hwait : awaitIdle s = .next s := waitIdle_of_stuck _ h
  rw [issue, hwait, andThen_next, if_pos hb]

/-- REFRESH, issued by the host to an idle block, hangs at its first frame (R98, R177). -/
theorem NeverReady.issueRefresh_hangs (h : NeverReady s) (hg : s.cfg.geometryLegal = true) (hb : s.busy = false) :
    issueRefresh s = .next (moveTo 0 .cmd (accept .refresh s)) := by
  have hissue : issueRefresh s = andThen (exec .refresh (sampleTx s)) awaitIdle := issue_of_idle hg hb (by decide)
  have hexec : exec .refresh s = .next (moveTo 0 .cmd (accept .refresh s)) := if_neg (by simp [h.level])
  rw [hissue, sampleTx_of_nil h.plan, hexec, andThen_next]
  exact waitIdle_of_stuck _ (h.step_heldRefresh hg)

/-! ## RENDER meets no frame -/

/-- RDCELL and SETPIX, issued by the host to an idle block, complete and leave the transport as it is (R112, R177). -/
theorem NeverReady.after_issue {w : Word} {i : Instr} (h : NeverReady s) (hd : decodeCmd w = .ok i)
    (hi : (∃ x y, i = .rdcell x y) ∨ ∃ x y v, i = .setpix x y v) (hg : s.cfg.geometryLegal = true)
    (hb : s.busy = false) (hissue : issue w s = .next t) : NeverReady t ∧ Undisturbed s t := by
  obtain ⟨u, hu, he, hun⟩ := issue_undisturbed hd hi hg hb
  cases hu.symm.trans hissue
  refine ⟨?_, hun⟩
  rw [sampleTx_of_nil h.plan] at he
  cases exec_ran he with
  | rdcell | setpix => exact ⟨by simpa using h.level, by simpa using h.plan⟩
  | clear | refresh | refreshWaits | init | initWaits | caload | caseed | advance => simp at hi
  | framePagesel | frameData | frameInit => simp at hi

/-- RENDER's work on one cell leaves a transport never ready as it is (R134). -/
theorem NeverReady.after_renderCell {x y : Nat} (h : NeverReady s) (hg : s.cfg.geometryLegal = true) (hb : s.busy = false)
    (hr : renderCell x y s = .next t) : NeverReady t ∧ Undisturbed s t := by
  obtain ⟨u, hu, ht⟩ := andThen_eq_next.mp hr
  obtain ⟨hnu, hun⟩ := h.after_issue (decodeCmd_rdcell _ _) (.inl ⟨_, _, rfl⟩) hg hb hu
  obtain ⟨hnt, htn⟩ := hnu.after_issue (decodeCmd_setpix _ _ _) (.inr ⟨_, _, _, rfl⟩) (hun.geometry hg) hun.idle ht
  exact ⟨hnt, hun.trans htn⟩

/-- RENDER's work on a list of cells leaves a transport never ready as it is (R134). -/
theorem NeverReady.after_renderCells {cells : List (Nat × Nat)} (h : NeverReady s) (hg : s.cfg.geometryLegal = true)
    (hb : s.busy = false) (hr : renderCells cells s = .next t) : NeverReady t := by
  induction cells generalizing s with
  | nil => cases hr; exact h
  | cons p rest ih =>
    obtain ⟨u, hu, ht⟩ := andThen_eq_next.mp hr
    obtain ⟨hnu, hun⟩ := h.after_renderCell hg hb hu
    exact ih hnu (hun.geometry hg) hun.idle ht

/-! ## FRAMELOOP, and the obligation -/

/-- One iteration of FRAMELOOP hangs at its REFRESH: RENDER completes, and ADVANCE is not accepted (R139, R174, R177). -/
theorem NeverReady.frameIteration_hangs (h : NeverReady s) (hg : s.cfg.geometryLegal = true)
    (hw : s.cfg.gw = s.cfg.w) (hh : s.cfg.gh = s.cfg.h) (hb : s.busy = false) :
    ∃ u, Undisturbed s u ∧ frameIteration s = .next (moveTo 0 .cmd (accept .refresh u)) := by
  obtain ⟨u, hu, hun, -, -⟩ := render_answers hg hw hh hb
  have hnu : NeverReady u := h.after_renderCells hg hb hu
  have hgu := hun.geometry hg
  refine ⟨u, hun, ?_⟩
  rw [frameIteration, hu, andThen_next, hnu.issueRefresh_hangs hgu hun.idle, andThen_next]
  exact issue_of_stuck _ rfl (hnu.step_heldRefresh hgu)

/-- Settles O56: the block that hangs is a fixed point of the step, and FRAMELOOP reaches one at its REFRESH. -/
theorem compositionWaitsForTransport : Obligations.CompositionWaitsForTransport := by
  refine ⟨fun s w hg hb ho hr hp => ?_, fun s hg hw hh hb hr hp => ?_⟩
  · have hstuck : step s = .next s := NeverReady.step_of_held ⟨hr, hp⟩ hg hb ho
    exact ⟨hstuck, issue_of_stuck w hb hstuck⟩
  · obtain ⟨u, hun, hiter⟩ := NeverReady.frameIteration_hangs ⟨hr, hp⟩ hg hw hh hb
    exact ⟨_, hiter, rfl, rfl, hun.cur, hun.bus⟩

end Sys2Proof.Machine
end
